-- ==== Sys2Proof/Word.lean ====
section
/-! DEFINITION. The widths the spec gives its values (00_scope.md R8: every value is an unsigned bit
vector of a stated width). -/

namespace Sys2Proof

/-- `u8`: a byte of a frame, a register address, a bus status, the accumulator. -/
abbrev Byte := BitVec 8

/-- `u16`: the value of one device register (00_scope.md R6, "register data width"). -/
abbrev Half := BitVec 16

/-- `u32`: the value of a pair of adjacent device registers (20_memory.md R43). -/
abbrev Pair := BitVec 32

end Sys2Proof
end

