-- ==== Sys2Proof/Config.lean ====
section
/-! DEFINITION. What an implementation of the block fixes (00_scope.md R6) and the two parameters the
spec leaves open (00_scope.md R7). None of it is state: no command reads or writes it at run time
(10_state.md R24). -/

namespace Sys2Proof

/-- The one argument a model of the block takes: `DEV_ADDR7`, by default `0x0B` (00_scope.md R6, D9).
The two address bytes are always derived from it (`Machine.writeAddress`, `Machine.readAddress`). The
machine of this package is the block at the default (DESIGN CHOICE, log entry 14). -/
structure Config where
  devAddr7 : BitVec 7 := 0x0B#7
  deriving DecidableEq, Repr

/-- The block as the spec fixes it: `DEV_ADDR7 = 0x0B`. -/
def Config.block : Config := { devAddr7 := 0x0B#7 }

/-- `POLY`, the checksum polynomial (00_scope.md R6). -/
def Config.poly : Byte := 0x07#8

/-- `CRC_INIT`, the accumulator's starting value (00_scope.md R6). -/
def Config.crcInit : Byte := 0x00#8

/-- The width classes `REG_TABLE` gives a device register (00_scope.md R7). -/
inductive RegWidth where
  | word
  | lowerHalf
  | upperHalf
  deriving DecidableEq, Repr

/-- The access modes `REG_TABLE` gives a device register (00_scope.md R7). -/
inductive AccessMode where
  | readOnly
  | writeOnly
  | readWrite
  deriving DecidableEq, Repr

/-- `REG_TABLE`, left open by the spec (00_scope.md R7, D28): a constant without a body, so nothing can be
assumed of any register address. No rule of the block reads it (DESIGN CHOICE, log entry 9). -/
opaque Config.regTable : Byte → Option (RegWidth × AccessMode)

/-- The shape of `INIT_VALUES` (00_scope.md R7, D29): the addresses of the four `init` writes, and the
two values the spec does not give. -/
structure InitValues where
  aApa : Byte
  aProf : Byte
  aPwr : Byte
  aStat : Byte
  vApa : Half
  vProf : Half
  deriving DecidableEq, Repr, Inhabited

/-- `INIT_VALUES`, left open by the spec (00_scope.md R7, D29): a constant without a body (DESIGN CHOICE, log entry 9). -/
opaque Config.initValues : InitValues

end Sys2Proof
end

