-- ==== Sys2Proof/Machine/Crc.lean ====
section
/-! DEFINITION. The CRC-8 engine's functions (40_crc_engine.md section 1). -/

namespace Sys2Proof.Machine

/-- `Round` (40_crc_engine.md R100): bit 7 is tested before the shift, the XOR comes after it. -/
def crcRound (a : Byte) : Byte :=
  if a.getLsbD 7 then (a <<< 1) ^^^ Config.poly else a <<< 1

/-- `n` rounds, one after another. -/
def crcRounds : Nat → Byte → Byte
  | 0, a => a
  | n + 1, a => crcRounds n (crcRound a)

/-- `ByteStep` (40_crc_engine.md R101): the byte is XORed into the whole accumulator, then 8 rounds. -/
def byteStep (acc b : Byte) : Byte :=
  crcRounds 8 (acc ^^^ b)

/-- A left fold of `byteStep` over a byte sequence, from a given accumulator. -/
def checksumFrom (acc : Byte) : List Byte → Byte
  | [] => acc
  | b :: bs => checksumFrom (byteStep acc b) bs

/-- `Checksum` (40_crc_engine.md R102): the fold from `CRC_INIT`, with no final XOR. -/
def checksum (bytes : List Byte) : Byte :=
  checksumFrom Config.crcInit bytes

/-- One step of the bit-serial engine (40_crc_engine.md R106): one input bit, most significant first. -/
def bitStep (acc : Byte) (bit : Bool) : Byte :=
  if acc.getLsbD 7 ^^ bit then (acc <<< 1) ^^^ Config.poly else acc <<< 1

/-- Bits `n - 1` down to 0 of a byte, fed one at a time (40_crc_engine.md R106). -/
def bitSteps : Nat → Byte → Byte → Byte
  | 0, acc, _ => acc
  | n + 1, acc, b => bitSteps n (bitStep acc (b.getLsbD n)) b

/-- The bit-serial byte update, `i = 7` down to `0` (40_crc_engine.md R106). -/
def bitSerialByte (acc b : Byte) : Byte :=
  bitSteps 8 acc b

end Sys2Proof.Machine
end

