-- ==== Sys2Proof/Machine/Operands.lean ====
section
/-! DEFINITION. The forms operands take: address bytes, the bytes of a word, the join and split of a
32-bit value, and the byte sequences a checksum covers. No operand is an immediate, and none is
sign-extended or scaled (30_encoding.md R61). -/

namespace Sys2Proof.Machine

/-- The address byte `{dev7, dir}` of a frame (30_encoding.md R67): `dir` is 0 for a write, 1 for a read. -/
def addressByte (dev7 : BitVec 7) (dir : BitVec 1) : Byte :=
  dev7 ++ dir

/-- `W_ADDR = DEV_ADDR7 * 2` (00_scope.md R6). -/
def writeAddress (cfg : Config) : Byte :=
  cfg.devAddr7.setWidth 8 * 2#8

/-- `R_ADDR = W_ADDR | 1` (00_scope.md R6). -/
def readAddress (cfg : Config) : Byte :=
  writeAddress cfg ||| 1#8

/-- `v[7:0]` (30_encoding.md R61). -/
def lowByte (v : Half) : Byte :=
  v.extractLsb' 0 8

/-- `v[15:8]` (30_encoding.md R61). -/
def highByte (v : Half) : Byte :=
  v.extractLsb' 8 8

/-- `Word16` (41_read_transaction.md R122): the first received byte is the low byte. -/
def word16 (lo hi : Byte) : Half :=
  (hi.setWidth 16 <<< 8) ||| lo.setWidth 16

/-- JOIN32's value (43_word_pair.md R160). -/
def joinWords (lo16 hi16 : Half) : Pair :=
  (hi16.setWidth 32 <<< 16) + lo16.setWidth 32

/-- SPLIT32's lower word, truncation to 16 bits (43_word_pair.md R161). -/
def lowerWord (x : Pair) : Half :=
  x.setWidth 16

/-- SPLIT32's upper word, a logical shift right by 16 and truncation (43_word_pair.md R161). -/
def upperWord (x : Pair) : Half :=
  (x >>> 16).setWidth 16

/-- `ReadFrame`, what the checksum of a read covers (41_read_transaction.md R120). -/
def readFrame (cfg : Config) (reg lo hi : Byte) : List Byte :=
  [writeAddress cfg, reg, readAddress cfg, lo, hi]

/-- `WriteFrame`, what the checksum of a write covers (42_write_transaction.md R140). -/
def writeFrame (cfg : Config) (reg : Byte) (v : Half) : List Byte :=
  [writeAddress cfg, reg, lowByte v, highByte v]

end Sys2Proof.Machine
end

