-- ==== Sys2Proof/Syntax.lean ====
section
/-! DEFINITION. The instructions of spec/opcode_table.json, one constructor a row (8 commands, 8 reserved
opcodes, 3 wire frames), and the two raw forms they are encoded in: the ports of a command
(10_state.md R26) and the bytes of a wire frame (30_encoding.md R68). -/

namespace Sys2Proof

/-- One constructor per row of the opcode table, with the operands that row's command reads
(10_state.md R26) or the bytes that row's frame varies (30_encoding.md R68). The table's eight RESERVED
rows are eight constructors, and they read no operand (60_exceptions.md R204; log entry 13). -/
inductive Instr where
  /-- CRC_CLR, `OP = 0x1` (40_crc_engine.md R104). -/
  | crcClr
  /-- CRC_BYTE, `OP = 0x2` (40_crc_engine.md R105). -/
  | crcByte (byte : Byte)
  /-- ENC_RDREQ, `OP = 0x3` (41_read_transaction.md R121). -/
  | encRdreq (reg : Byte)
  /-- DEC_RD, `OP = 0x4` (41_read_transaction.md R123). -/
  | decRd (reg wstat : Byte) (rxlen : BitVec 2) (resp0 resp1 resp2 : Byte)
  /-- ENC_WR, `OP = 0x5` (42_write_transaction.md R141). -/
  | encWr (reg : Byte) (wdata : Half)
  /-- WR_DONE, `OP = 0x6` (42_write_transaction.md R143). -/
  | wrDone (wstat : Byte)
  /-- JOIN32, `OP = 0x7` (43_word_pair.md R160). -/
  | join32 (lo16 hi16 : Half)
  /-- SPLIT32, `OP = 0x8` (43_word_pair.md R161). -/
  | split32 (x32 : Pair)
  /-- RESERVED, `OP = 0x0` (60_exceptions.md R203). -/
  | reserved0
  /-- RESERVED, `OP = 0x9` (60_exceptions.md R203). -/
  | reserved9
  /-- RESERVED, `OP = 0xA` (60_exceptions.md R203). -/
  | reservedA
  /-- RESERVED, `OP = 0xB` (60_exceptions.md R203). -/
  | reservedB
  /-- RESERVED, `OP = 0xC` (60_exceptions.md R203). -/
  | reservedC
  /-- RESERVED, `OP = 0xD` (60_exceptions.md R203). -/
  | reservedD
  /-- RESERVED, `OP = 0xE` (60_exceptions.md R203). -/
  | reservedE
  /-- RESERVED, `OP = 0xF` (60_exceptions.md R203). -/
  | reservedF
  /-- WIRE_WR, the write frame: bytes 1 to 4 after the write address byte (30_encoding.md R68). -/
  | wireWr (reg lo hi crc : Byte)
  /-- WIRE_RDREQ, the read request: byte 1 after the write address byte (30_encoding.md R68). -/
  | wireRdreq (reg : Byte)
  /-- WIRE_RDRESP, the read response: bytes 1 to 3 after the read address byte (30_encoding.md R68). -/
  | wireRdresp (lo hi crc : Byte)
  deriving DecidableEq, Repr

/-- A command as the host presents it: the opcode and ALL the operand fields, each a port of its own
(10_state.md R26, 30_encoding.md R60). -/
structure Command where
  op : BitVec 4
  byte : Byte
  reg : Byte
  wdata : Half
  wstat : Byte
  rxlen : BitVec 2
  resp0 : Byte
  resp1 : Byte
  resp2 : Byte
  lo16 : Half
  hi16 : Half
  x32 : Pair
  deriving DecidableEq, Repr

/-- An instruction in its encoded form: a command on the block's ports, or the bytes that pass on the
two-wire bus, byte 0 first (30_encoding.md, opening). -/
inductive Encoded where
  | command (c : Command)
  | wire (bytes : List Byte)
  deriving DecidableEq, Repr

/-- What the decoder says of an encoded form that is no row of the table. Only wire bytes can be one:
every value of `OP` is a row (30_encoding.md R62). -/
inductive DecodeError where
  /-- The number of bytes is none of the three frames' (30_encoding.md R70). -/
  | wrongFrameLength
  /-- Byte 0 is not the address byte the frame of that length begins with (30_encoding.md R67, R68). -/
  | wrongAddressByte
  deriving DecidableEq, Repr

end Sys2Proof
end

