-- ==== Sys2Proof/WellFormed.lean ====
section
/-! DEFINITION. Which instructions are well formed. Operand widths are types, every operand value of a
command is legal (20_memory.md R49, 60_exceptions.md R209), so one check is left: the last byte of a
write frame IS the checksum of the bytes before it (30_encoding.md R68, R69). What a read response's
checksum must be depends on the request before it, so it is no property of the response alone. The
decoder and the machine accept an ill-formed write frame all the same: the bus carries any byte, and
what the device does with it is not in the spec (91_not_in_source.md N6; DEDUCED, log entry 12). -/

namespace Sys2Proof

/-- Well-formedness of an instruction: 30_encoding.md R68, byte 4 of `WIRE_WR`. -/
def Instr.wellFormed : Instr → Bool
  | .wireWr reg lo hi crc =>
    crc == Machine.checksum [Machine.writeAddress Config.block, reg, lo, hi]
  | .crcClr => true
  | .crcByte _ => true
  | .encRdreq _ => true
  | .decRd _ _ _ _ _ _ => true
  | .encWr _ _ => true
  | .wrDone _ => true
  | .join32 _ _ => true
  | .split32 _ => true
  | .reserved0 => true
  | .reserved9 => true
  | .reservedA => true
  | .reservedB => true
  | .reservedC => true
  | .reservedD => true
  | .reservedE => true
  | .reservedF => true
  | .wireRdreq _ => true
  | .wireRdresp _ _ _ => true

end Sys2Proof
end

