-- ==== Sys2Proof/Decode.lean ====
section
/-! DEFINITION. The decoder of encoded instructions, total on every command and every byte sequence
(30_encoding.md R60, R62, R68, R70), the encoder written from the same tables, and the numbering of
spec/opcode_table.json. -/

namespace Sys2Proof

/-- The opcode map (30_encoding.md R60). `OP` alone selects the command, and a command takes only the
fields listed for it in 10_state.md R26. The last arm is `OP = 0x0`: the others name 1 to 15. -/
def decodeCommand (c : Command) : Instr :=
  match c.op.toNat with
  | 1 => .crcClr
  | 2 => .crcByte c.byte
  | 3 => .encRdreq c.reg
  | 4 => .decRd c.reg c.wstat c.rxlen c.resp0 c.resp1 c.resp2
  | 5 => .encWr c.reg c.wdata
  | 6 => .wrDone c.wstat
  | 7 => .join32 c.lo16 c.hi16
  | 8 => .split32 c.x32
  | 9 => .reserved9
  | 10 => .reservedA
  | 11 => .reservedB
  | 12 => .reservedC
  | 13 => .reservedD
  | 14 => .reservedE
  | 15 => .reservedF
  | _ => .reserved0

/-- The wire frames, byte 0 first (30_encoding.md R68): the length tells the kind (R70), and byte 0 is
the address byte with the kind's direction (R67). -/
def decodeFrame (bytes : List Byte) : Except DecodeError Instr :=
  match bytes with
  | [a, reg] =>
    if a = Machine.writeAddress Config.block then .ok (.wireRdreq reg)
    else .error .wrongAddressByte
  | [a, lo, hi, crc] =>
    if a = Machine.readAddress Config.block then .ok (.wireRdresp lo hi crc)
    else .error .wrongAddressByte
  | [a, reg, lo, hi, crc] =>
    if a = Machine.writeAddress Config.block then .ok (.wireWr reg lo hi crc)
    else .error .wrongAddressByte
  | _ => .error .wrongFrameLength

/-- The decoder. -/
def decode (e : Encoded) : Except DecodeError Instr :=
  match e with
  | .command c => .ok (decodeCommand c)
  | .wire bytes => decodeFrame bytes

/-- A command with every operand port at zero. -/
def bareCommand (op : BitVec 4) : Command :=
  { op := op, byte := 0#8, reg := 0#8, wdata := 0#16, wstat := 0#8, rxlen := 0#2, resp0 := 0#8,
    resp1 := 0#8, resp2 := 0#8, lo16 := 0#16, hi16 := 0#16, x32 := 0#32 }

/-- The encoder: the command with the ports it does not read at zero (DESIGN CHOICE, log entry 6), or the frame's
bytes, byte 0 first. -/
def encode (i : Instr) : Encoded :=
  match i with
  | .crcClr => .command (bareCommand 0x1#4)
  | .crcByte byte => .command { bareCommand 0x2#4 with byte := byte }
  | .encRdreq reg => .command { bareCommand 0x3#4 with reg := reg }
  | .decRd reg wstat rxlen resp0 resp1 resp2 =>
    .command { bareCommand 0x4#4 with
      reg := reg, wstat := wstat, rxlen := rxlen, resp0 := resp0, resp1 := resp1, resp2 := resp2 }
  | .encWr reg wdata => .command { bareCommand 0x5#4 with reg := reg, wdata := wdata }
  | .wrDone wstat => .command { bareCommand 0x6#4 with wstat := wstat }
  | .join32 lo16 hi16 => .command { bareCommand 0x7#4 with lo16 := lo16, hi16 := hi16 }
  | .split32 x32 => .command { bareCommand 0x8#4 with x32 := x32 }
  | .reserved0 => .command (bareCommand 0x0#4)
  | .reserved9 => .command (bareCommand 0x9#4)
  | .reservedA => .command (bareCommand 0xA#4)
  | .reservedB => .command (bareCommand 0xB#4)
  | .reservedC => .command (bareCommand 0xC#4)
  | .reservedD => .command (bareCommand 0xD#4)
  | .reservedE => .command (bareCommand 0xE#4)
  | .reservedF => .command (bareCommand 0xF#4)
  | .wireWr reg lo hi crc => .wire [Machine.writeAddress Config.block, reg, lo, hi, crc]
  | .wireRdreq reg => .wire [Machine.writeAddress Config.block, reg]
  | .wireRdresp lo hi crc => .wire [Machine.readAddress Config.block, lo, hi, crc]

/-- A command with the ports that its opcode does not read set to zero, by the column "read by" of
10_state.md R26. -/
def canonicalCommand (c : Command) : Command :=
  { op := c.op
    byte := if c.op = 0x2#4 then c.byte else 0#8
    reg := if c.op = 0x3#4 ∨ c.op = 0x4#4 ∨ c.op = 0x5#4 then c.reg else 0#8
    wdata := if c.op = 0x5#4 then c.wdata else 0#16
    wstat := if c.op = 0x4#4 ∨ c.op = 0x6#4 then c.wstat else 0#8
    rxlen := if c.op = 0x4#4 then c.rxlen else 0#2
    resp0 := if c.op = 0x4#4 then c.resp0 else 0#8
    resp1 := if c.op = 0x4#4 then c.resp1 else 0#8
    resp2 := if c.op = 0x4#4 then c.resp2 else 0#8
    lo16 := if c.op = 0x7#4 then c.lo16 else 0#16
    hi16 := if c.op = 0x7#4 then c.hi16 else 0#16
    x32 := if c.op = 0x8#4 then c.x32 else 0#32 }

/-- An encoded form with the ports its opcode does not read set to zero. -/
def canonical (e : Encoded) : Encoded :=
  match e with
  | .command c => .command (canonicalCommand c)
  | .wire bytes => .wire bytes

/-- The `n` bytes of a number, most significant byte first. -/
def bytesOf : Nat → Nat → List Byte
  | 0, _ => []
  | n + 1, w => BitVec.ofNat 8 (w >>> (8 * n)) :: bytesOf n w

/-- The encoded form of an instruction whose bits are `w` as spec/opcode_table.json numbers them (DEDUCED,
log entry 5). A command row gives `OP` in bits 3 to 0, and its operands are ports the row gives no bits,
so they are zero. A frame row is one number of 16, 32 or 40 bits whose most significant byte is
byte 0 of the frame (30_encoding.md R68, last paragraph). -/
def layTableWord (nbits w : Nat) : Encoded :=
  if nbits ≤ 8 ∧ w < 16 then .command (bareCommand (BitVec.ofNat 4 w))
  else .wire (bytesOf ((nbits + 7) / 8) w)

/-- What the decoder reads from a word of the opcode table. -/
def decodeTableWord (nbits w : Nat) : Option Instr :=
  match decode (layTableWord nbits w) with
  | .ok i => some i
  | .error _ => none

end Sys2Proof
end

