-- ==== Sys2Proof/Machine/State.lean ====
section
/-! DEFINITION. The machine's state as plain data, and the state after reset.

The block itself has one register, `ACC` (10_state.md R20). The other three fields are the interface
the block stands at: what the host has issued, what the block has answered, and what has passed on
the bus. -/

namespace Sys2Proof.Machine

/-- The status a command ends with (60_exceptions.md R200), by name: `statusCode` gives the 2-bit codes
(DESIGN CHOICE, log entry 16). -/
inductive Status where
  | ok
  | busError
  | checksumError
  | illegalCommand
  deriving DecidableEq, Repr

/-- The result record of one command: the fields of 10_state.md R27, in the spec's order and widths
(`status` by name). -/
structure Result where
  status : Status
  crc : Byte
  dev7 : BitVec 7
  tx0 : Byte
  tx1 : Byte
  tx2 : Byte
  tx3 : Byte
  txlen : BitVec 3
  txhold : BitVec 1
  rxreq : BitVec 2
  rxhold : BitVec 1
  rdata : Half
  y32 : Pair
  olo16 : Half
  ohi16 : Half
  deriving DecidableEq, Repr

/-- One transfer on the two-wire bus: the address byte the bus layer sends (30_encoding.md R67), the
bytes after it, and whether a stop condition ends it (00_scope.md R11, "hold the bus"). -/
structure Transfer where
  address : Byte
  payload : List Byte
  stop : Bool
  deriving DecidableEq, Repr

/-- What the host can do to the machine, one action a step: present an encoded instruction (a command
for the block, or the bytes of a transfer it performs on the bus), or reset the block
(70_reset_and_hazards.md R240, R244). -/
inductive HostAction where
  | present (e : Encoded)
  | reset
  deriving DecidableEq, Repr

/-- The machine's state. -/
structure State where
  /-- `ACC`, the block's only register (10_state.md R20). -/
  acc : Byte
  /-- The result records of the commands performed so far, oldest first: a run's observable outcome
  (70_reset_and_hazards.md R252; DESIGN CHOICE, log entry 2). No command reads it (10_state.md R23). -/
  results : List Result
  /-- The frames that have passed on the bus so far, oldest first. Outside the block: no command reads or
  writes it (20_memory.md R41, 70_reset_and_hazards.md R245; DESIGN CHOICE, log entry 3). -/
  bus : List Transfer
  /-- What the host has issued and the machine has not yet taken, in the host's order (20_memory.md R47,
  70_reset_and_hazards.md R252; DESIGN CHOICE, log entry 1). -/
  pending : List HostAction
  deriving DecidableEq, Repr

/-- The reasons the machine stops with a fault. There is NONE: no error traps, every failure is a status
the command returns (60_exceptions.md R205), and no command hangs or gets stuck
(70_reset_and_hazards.md R252). So the type has no constructor (DEDUCED, log entry 8). -/
inductive Fault where
  deriving DecidableEq, Repr

/-- The reasons a step has no meaning. -/
inductive Refusal where
  /-- An instruction of the table that has no meaning yet. Raised by an arm of `exec` alone. Every
  instruction has its meaning, so nothing raises it. Safe: the machine would stop. -/
  | notModelled (mnemonic : String)
  deriving DecidableEq, Repr

/-- What the machine finds when it takes the host's next action. -/
inductive Fetched where
  /-- The host has issued nothing. -/
  | idle
  /-- The host resets the block. -/
  | reset (s : State)
  /-- The host moved bytes on the bus that are no frame of the block: it may do anything between two
  commands, and the block cannot observe it (70_reset_and_hazards.md R245; DEDUCED, log entry 11). -/
  | noFrame (s : State)
  /-- An instruction, with the state in which it is performed. -/
  | run (i : Instr) (s : State)
  deriving DecidableEq, Repr

/-- The state after reset: `ACC = CRC_INIT = 0x00` (10_state.md R30, 70_reset_and_hazards.md R240), with
nothing issued, nothing answered and nothing on the bus. -/
def State.reset : State :=
  { acc := Config.crcInit, results := [], bus := [], pending := [] }

end Sys2Proof.Machine
end

