-- ==== Sys2Proof/Machine/Flags.lean ====
section
/-! DEFINITION. The status of a command: its 2-bit codes and the conditions it is computed from. The block
has no flag that outlives a command (10_state.md R23), so this is all there is. -/

namespace Sys2Proof.Machine

/-- The code of a status in `out.STATUS` (60_exceptions.md R200). -/
def statusCode (st : Status) : BitVec 2 :=
  match st with
  | .ok => 0#2
  | .busError => 1#2
  | .checksumError => 2#2
  | .illegalCommand => 3#2

/-- The source's single boolean failure signal, `STATUS != 0` (60_exceptions.md R200). -/
def failed (st : Status) : Bool :=
  statusCode st != 0#2

/-- The host's bus write failed: `WSTAT != 0x00` (60_exceptions.md R201). -/
def writeFailed (wstat : Byte) : Bool :=
  wstat != 0x00#8

/-- A bus primitive of a read failed: `WSTAT != 0x00` or `RXLEN != 3` (60_exceptions.md R201). -/
def readFailed (wstat : Byte) (rxlen : BitVec 2) : Bool :=
  writeFailed wstat || rxlen != 3#2

end Sys2Proof.Machine
end

