-- ==== Sys2Proof/Machine/Ops.lean ====
section
/-! DEFINITION. The named operations every meaning is made of: the accumulator, ending a command, raising
an error, a transfer on the bus, the block's reset, and taking the host's next action. -/

namespace Sys2Proof.Machine

/-- `ACC <- v` (00_scope.md R9). -/
def setAcc (v : Byte) (s : State) : State :=
  { s with acc := v }

/-- A result record with every field at zero, `STATUS` at OK: what a field that the command's rule does
not write reads as (10_state.md R28). -/
def blankResult : Result :=
  { status := .ok, crc := 0#8, dev7 := 0#7, tx0 := 0#8, tx1 := 0#8, tx2 := 0#8, tx3 := 0#8, txlen := 0#3,
    txhold := 0#1, rxreq := 0#2, rxhold := 0#1, rdata := 0#16, y32 := 0#32, olo16 := 0#16, ohi16 := 0#16 }

/-- Answer the host with a record whose `CRC` field is the value `ACC` holds once the command has
finished (10_state.md R29). -/
def answer (r : Result) (s : State) : State :=
  { s with results := s.results ++ [{ r with crc := s.acc }] }

/-- End a command with status OK and the fields its rule writes. -/
def complete (r : Result) (s : State) : Host.Outcome State Fault Refusal :=
  .next (answer { r with status := .ok } s)

/-- TAKING AN EXCEPTION: `raise` (00_scope.md R9, 60_exceptions.md R205). It only ends the command with its
status: no trap, no saved state, no mode, no vector, and every field but `STATUS` and `CRC` at zero
(10_state.md R28). There is no return from it: nothing is entered (60_exceptions.md R207). -/
def raiseError (st : Status) (s : State) : Host.Outcome State Fault Refusal :=
  .next (answer { blankResult with status := st } s)

/-- A frame passes on the bus. The block does not observe it (70_reset_and_hazards.md R245), and what the
device does with it is no part of the model (20_memory.md R41; DESIGN CHOICE, log entry 3). -/
def passOnBus (t : Transfer) (s : State) : Host.Outcome State Fault Refusal :=
  .next { s with bus := s.bus ++ [t] }

/-- The block's reset (70_reset_and_hazards.md R240): `ACC <- 0x00`, and nothing else (D30; DEDUCED, log entry 7). -/
def resetBlock (s : State) : State :=
  setAcc Config.crcInit s

/-- Take the host's next action (20_memory.md R47): in the host's order, one at a time. -/
def fetch (s : State) : Fetched :=
  match s.pending with
  | [] => .idle
  | .reset :: rest => .reset { s with pending := rest }
  | .present e :: rest =>
    match decode e with
    | .ok i => .run i { s with pending := rest }
    | .error _ => .noFrame { s with pending := rest }

/-- The record of the last command performed, as the host reads it (10_state.md R27). -/
def lastResult (s : State) : Option Result :=
  s.results.getLast?

end Sys2Proof.Machine
end

