-- ==== Sys2Proof/Machine/CrcEngine.lean ====
section
/-! DEFINITION. The meanings of CRC_CLR and CRC_BYTE (40_crc_engine.md section 2). -/

namespace Sys2Proof.Machine

/-- CRC_CLR (40_crc_engine.md R104). -/
def execCrcClr (s : State) : Host.Outcome State Fault Refusal :=
  complete blankResult (setAcc Config.crcInit s)

/-- CRC_BYTE (40_crc_engine.md R105). -/
def execCrcByte (byte : Byte) (s : State) : Host.Outcome State Fault Refusal :=
  complete blankResult (setAcc (byteStep s.acc byte) s)

end Sys2Proof.Machine
end

