-- ==== Sys2Proof/Machine/ReadTransaction.lean ====
section
/-! DEFINITION. The meanings of ENC_RDREQ and DEC_RD (41_read_transaction.md section 2). -/

namespace Sys2Proof.Machine

/-- ENC_RDREQ for a device address (41_read_transaction.md R121). -/
def encodeReadRequest (cfg : Config) (reg : Byte) (s : State) : Host.Outcome State Fault Refusal :=
  complete
    { blankResult with
      dev7 := cfg.devAddr7, tx0 := reg, txlen := 1#3, txhold := 1#1, rxreq := 3#2, rxhold := 0#1 } s

/-- DEC_RD for a device address (41_read_transaction.md R123): the bus check comes first
(60_exceptions.md R204), and `ACC` keeps the computed checksum whether or not it matches. -/
def decodeReadResponse (cfg : Config) (reg wstat : Byte) (rxlen : BitVec 2) (resp0 resp1 resp2 : Byte)
    (s : State) : Host.Outcome State Fault Refusal :=
  if readFailed wstat rxlen then raiseError .busError s
  else if checksum (readFrame cfg reg resp0 resp1) ≠ resp2 then
    raiseError .checksumError (setAcc (checksum (readFrame cfg reg resp0 resp1)) s)
  else
    complete { blankResult with rdata := word16 resp0 resp1 }
      (setAcc (checksum (readFrame cfg reg resp0 resp1)) s)

/-- ENC_RDREQ (41_read_transaction.md R121). -/
def execEncRdreq (reg : Byte) (s : State) : Host.Outcome State Fault Refusal :=
  encodeReadRequest Config.block reg s

/-- DEC_RD (41_read_transaction.md R123). -/
def execDecRd (reg wstat : Byte) (rxlen : BitVec 2) (resp0 resp1 resp2 : Byte) (s : State) :
    Host.Outcome State Fault Refusal :=
  decodeReadResponse Config.block reg wstat rxlen resp0 resp1 resp2 s

end Sys2Proof.Machine
end

