-- ==== Sys2Proof/Machine/Reserved.lean ====
section
/-! DEFINITION. The meanings of the eight reserved opcodes (60_exceptions.md R203, 30_encoding.md R62): each
completes with ILLEGAL_COMMAND and changes no state of the block. -/

namespace Sys2Proof.Machine

/-- RESERVED, `OP = 0x0` (60_exceptions.md R203). -/
def execReserved0 (s : State) : Host.Outcome State Fault Refusal :=
  raiseError .illegalCommand s

/-- RESERVED, `OP = 0x9` (60_exceptions.md R203). -/
def execReserved9 (s : State) : Host.Outcome State Fault Refusal :=
  raiseError .illegalCommand s

/-- RESERVED, `OP = 0xA` (60_exceptions.md R203). -/
def execReservedA (s : State) : Host.Outcome State Fault Refusal :=
  raiseError .illegalCommand s

/-- RESERVED, `OP = 0xB` (60_exceptions.md R203). -/
def execReservedB (s : State) : Host.Outcome State Fault Refusal :=
  raiseError .illegalCommand s

/-- RESERVED, `OP = 0xC` (60_exceptions.md R203). -/
def execReservedC (s : State) : Host.Outcome State Fault Refusal :=
  raiseError .illegalCommand s

/-- RESERVED, `OP = 0xD` (60_exceptions.md R203). -/
def execReservedD (s : State) : Host.Outcome State Fault Refusal :=
  raiseError .illegalCommand s

/-- RESERVED, `OP = 0xE` (60_exceptions.md R203). -/
def execReservedE (s : State) : Host.Outcome State Fault Refusal :=
  raiseError .illegalCommand s

/-- RESERVED, `OP = 0xF` (60_exceptions.md R203). -/
def execReservedF (s : State) : Host.Outcome State Fault Refusal :=
  raiseError .illegalCommand s

end Sys2Proof.Machine
end

