-- ==== Sys2Proof/Machine/Wire.lean ====
section
/-! DEFINITION. The wire frames (30_encoding.md R67, R68, R70): what each puts on the two-wire bus, and the
transfers the host makes from a command's result (70_reset_and_hazards.md R245). The block observes no
frame: `ACC` and the results are as before (DESIGN CHOICE, log entry 3). -/

namespace Sys2Proof.Machine

/-- The transfer of a WIRE_WR frame: one bus write of four payload bytes, ended by a stop. -/
def writeTransfer (cfg : Config) (reg lo hi crc : Byte) : Transfer :=
  { address := writeAddress cfg, payload := [reg, lo, hi, crc], stop := true }

/-- The transfer of a WIRE_RDREQ frame: a bus write of one payload byte with no stop condition. -/
def requestTransfer (cfg : Config) (reg : Byte) : Transfer :=
  { address := writeAddress cfg, payload := [reg], stop := false }

/-- The transfer of a WIRE_RDRESP frame: three bytes from the device. The bus is not held after it
(41_read_transaction.md R121, `RXHOLD = 0`; DEDUCED, log entry 17). -/
def responseTransfer (cfg : Config) (lo hi crc : Byte) : Transfer :=
  { address := readAddress cfg, payload := [lo, hi, crc], stop := true }

/-- WIRE_WR (30_encoding.md R68). -/
def execWireWr (reg lo hi crc : Byte) (s : State) : Host.Outcome State Fault Refusal :=
  passOnBus (writeTransfer Config.block reg lo hi crc) s

/-- WIRE_RDREQ (30_encoding.md R68). -/
def execWireRdreq (reg : Byte) (s : State) : Host.Outcome State Fault Refusal :=
  passOnBus (requestTransfer Config.block reg) s

/-- WIRE_RDRESP (30_encoding.md R68). -/
def execWireRdresp (lo hi crc : Byte) (s : State) : Host.Outcome State Fault Refusal :=
  passOnBus (responseTransfer Config.block lo hi crc) s

/-- `busWrite(DEV7, [TX0, ...], TXHOLD)`, the transfer the host makes from a result record
(70_reset_and_hazards.md R245): `TXLEN` bytes of `TX`, `TX0` first. -/
def hostBusWrite (r : Result) : Transfer :=
  { address := addressByte r.dev7 0#1
    payload := [r.tx0, r.tx1, r.tx2, r.tx3].take r.txlen.toNat
    stop := r.txhold == 0#1 }

/-- `busRead(DEV7, RXREQ, RXHOLD)`, the transfer the host makes from a result record when the device
answers with `bytes` (70_reset_and_hazards.md R245). -/
def hostBusRead (r : Result) (bytes : List Byte) : Transfer :=
  { address := addressByte r.dev7 1#1
    payload := bytes
    stop := r.rxhold == 0#1 }

end Sys2Proof.Machine
end

