-- ==== Sys2Proof/Machine/WordPair.lean ====
section
/-! DEFINITION. The meanings of JOIN32 and SPLIT32 (43_word_pair.md). -/

namespace Sys2Proof.Machine

/-- JOIN32 (43_word_pair.md R160). -/
def execJoin32 (lo16 hi16 : Half) (s : State) : Host.Outcome State Fault Refusal :=
  complete { blankResult with y32 := joinWords lo16 hi16 } s

/-- SPLIT32 (43_word_pair.md R161). -/
def execSplit32 (x32 : Pair) (s : State) : Host.Outcome State Fault Refusal :=
  complete { blankResult with olo16 := lowerWord x32, ohi16 := upperWord x32 } s

end Sys2Proof.Machine
end

