-- ==== Sys2Proof/Machine/WriteTransaction.lean ====
section
/-! DEFINITION. The meanings of ENC_WR and WR_DONE (42_write_transaction.md section 2). -/

namespace Sys2Proof.Machine

/-- ENC_WR for a device address (42_write_transaction.md R141). -/
def encodeWrite (cfg : Config) (reg : Byte) (wdata : Half) (s : State) : Host.Outcome State Fault Refusal :=
  complete
    { blankResult with
      dev7 := cfg.devAddr7, tx0 := reg, tx1 := lowByte wdata, tx2 := highByte wdata,
      tx3 := checksum (writeFrame cfg reg wdata), txlen := 4#3, txhold := 0#1 }
    (setAcc (checksum (writeFrame cfg reg wdata)) s)

/-- ENC_WR (42_write_transaction.md R141). -/
def execEncWr (reg : Byte) (wdata : Half) (s : State) : Host.Outcome State Fault Refusal :=
  encodeWrite Config.block reg wdata s

/-- WR_DONE (42_write_transaction.md R143). -/
def execWrDone (wstat : Byte) (s : State) : Host.Outcome State Fault Refusal :=
  if writeFailed wstat then raiseError .busError s else complete blankResult s

end Sys2Proof.Machine
end

