-- ==== Sys2Proof/Machine/Dispatch.lean ====
section
/-! DEFINITION. One arm per instruction, each one direct call of that instruction's meaning. -/

namespace Sys2Proof.Machine

def exec (i : Instr) (s : State) : Host.Outcome State Fault Refusal :=
  match i with
  | .crcClr => Sys2Proof.Machine.execCrcClr s
  | .crcByte byte => Sys2Proof.Machine.execCrcByte byte s
  | .encRdreq reg => Sys2Proof.Machine.execEncRdreq reg s
  | .decRd reg wstat rxlen resp0 resp1 resp2 => Sys2Proof.Machine.execDecRd reg wstat rxlen resp0 resp1 resp2 s
  | .encWr reg wdata => Sys2Proof.Machine.execEncWr reg wdata s
  | .wrDone wstat => Sys2Proof.Machine.execWrDone wstat s
  | .join32 lo16 hi16 => Sys2Proof.Machine.execJoin32 lo16 hi16 s
  | .split32 x32 => Sys2Proof.Machine.execSplit32 x32 s
  | .reserved0 => Sys2Proof.Machine.execReserved0 s
  | .reserved9 => Sys2Proof.Machine.execReserved9 s
  | .reservedA => Sys2Proof.Machine.execReservedA s
  | .reservedB => Sys2Proof.Machine.execReservedB s
  | .reservedC => Sys2Proof.Machine.execReservedC s
  | .reservedD => Sys2Proof.Machine.execReservedD s
  | .reservedE => Sys2Proof.Machine.execReservedE s
  | .reservedF => Sys2Proof.Machine.execReservedF s
  | .wireWr reg lo hi crc => Sys2Proof.Machine.execWireWr reg lo hi crc s
  | .wireRdreq reg => Sys2Proof.Machine.execWireRdreq reg s
  | .wireRdresp lo hi crc => Sys2Proof.Machine.execWireRdresp lo hi crc s

end Sys2Proof.Machine
end

