-- ==== Sys2Proof/Machine/Step.lean ====
section
/-! DEFINITION. One step of the machine, and where a step finds its next instruction. -/

namespace Sys2Proof.Machine

/-- One atomic step (00_scope.md R10): take the host's next action and perform it. With nothing issued the
block does nothing (DESIGN CHOICE, log entry 4). -/
def step (s : State) : Host.Outcome State Fault Refusal :=
  match fetch s with
  | .idle => .next s
  | .reset s' => .next (resetBlock s')
  | .noFrame s' => .next s'
  | .run i s' => exec i s'

/-- `s` with the instruction of a table word issued by the host as its NEXT action, before all it has
issued already (DESIGN CHOICE, log entry 1). -/
def State.withFetchWord (s : State) (nbits w : Nat) : State :=
  { s with pending := .present (layTableWord nbits w) :: s.pending }

end Sys2Proof.Machine
end

