-- ==== Sys2Proof/Machine/Pseudo.lean ====
section
/-! DEFINITION. The pseudo-instructions (30_encoding.md R64 to R66) and the source's `init` sequence
(70_reset_and_hazards.md R243) as sequences of commands. They are the host's programs: a `host:` line is
no command, and what it gives back (a status, a length, bytes) is an argument here, ANY value
(93_implementation_defined.md U1, U2, U7; DESIGN CHOICE, log entry 10). -/

namespace Sys2Proof.Machine

/-- What the host's two bus primitives of one read give back (70_reset_and_hazards.md R245). -/
structure BusRead where
  wstat : Byte
  rxlen : BitVec 2
  resp0 : Byte
  resp1 : Byte
  resp2 : Byte
  deriving DecidableEq, Repr

/-- Go on from a next state, stop with anything else. -/
def andThen (o : Host.Outcome State Fault Refusal) (f : State → Host.Outcome State Fault Refusal) :
    Host.Outcome State Fault Refusal :=
  match o with
  | .next s => f s
  | .fault r => .fault r
  | .refused r => .refused r

/-- "stop with its STATUS if not OK" (30_encoding.md R66, 60_exceptions.md R208): go on with the last
command's record if its status is OK, else end here with what is done left as it is. -/
def ifOk (o : Host.Outcome State Fault Refusal) (f : Result → State → Host.Outcome State Fault Refusal) :
    Host.Outcome State Fault Refusal :=
  andThen o fun s =>
    match lastResult s with
    | some r => if r.status = .ok then f r s else .next s
    | none => .next s

/-- CHECKSUM b0, ..., b(n-1): the commands the host issues (30_encoding.md R64). -/
def pseudoChecksum (bytes : List Byte) : List HostAction :=
  .present (encode .crcClr) :: bytes.map fun b => .present (encode (.crcByte b))

/-- READ reg, with what the bus primitives gave back (30_encoding.md R65). -/
def pseudoRead (reg : Byte) (b : BusRead) (s : State) : Host.Outcome State Fault Refusal :=
  andThen (exec (.encRdreq reg) s) fun s1 =>
    exec (.decRd reg b.wstat b.rxlen b.resp0 b.resp1 b.resp2) s1

/-- WRITE reg, v, with the status of the host's bus write (30_encoding.md R65). -/
def pseudoWrite (reg : Byte) (v : Half) (wstat : Byte) (s : State) : Host.Outcome State Fault Refusal :=
  andThen (exec (.encWr reg v) s) fun s1 => exec (.wrDone wstat) s1

/-- READ32 addr (30_encoding.md R66): the lower register first, the upper one at `(addr + 1) mod 256`. -/
def pseudoRead32 (addr : Byte) (b1 b2 : BusRead) (s : State) : Host.Outcome State Fault Refusal :=
  ifOk (pseudoRead addr b1 s) fun lo s1 =>
    ifOk (pseudoRead (addr + 1#8) b2 s1) fun hi s2 =>
      exec (.join32 lo.rdata hi.rdata) s2

/-- WRITE32 addr, x (30_encoding.md R66): the lower register first, the upper one at `(addr + 1) mod 256`. -/
def pseudoWrite32 (addr : Byte) (x : Pair) (wstat1 wstat2 : Byte) (s : State) :
    Host.Outcome State Fault Refusal :=
  ifOk (exec (.split32 x) s) fun r s1 =>
    ifOk (pseudoWrite addr r.olo16 wstat1 s1) fun _ s2 =>
      pseudoWrite (addr + 1#8) r.ohi16 wstat2 s2

/-- The source's `init` sequence (70_reset_and_hazards.md R243): four writes in order, ending at the first
that fails, with nothing undone (60_exceptions.md R208), for any value of the open parameter. -/
def pseudoInit (v : InitValues) (wstat1 wstat2 wstat3 wstat4 : Byte) (s : State) :
    Host.Outcome State Fault Refusal :=
  ifOk (pseudoWrite v.aApa v.vApa wstat1 s) fun _ s1 =>
    ifOk (pseudoWrite v.aProf v.vProf wstat2 s1) fun _ s2 =>
      ifOk (pseudoWrite v.aPwr 0x0001#16 wstat3 s2) fun _ s3 =>
        pseudoWrite v.aStat 0x0040#16 wstat4 s3

/-- The `init` sequence of this block's host, at the open parameter `INIT_VALUES` (00_scope.md R7). -/
def hostInit (wstat1 wstat2 wstat3 wstat4 : Byte) (s : State) : Host.Outcome State Fault Refusal :=
  pseudoInit Config.initValues wstat1 wstat2 wstat3 wstat4 s

end Sys2Proof.Machine
end

