-- ==== Sys2Proof/Safety.lean ====
section
/-! DEFINITION. What counts as a safe run, in the terms claims use: which instructions are commands, which
leave the accumulator alone, which records and transfers are legal, the machine's invariant, and the
host's duty to keep the bus exclusive. -/

namespace Sys2Proof

/-- The instruction is a command of the block (format `CMD`, reserved opcodes included), not a wire frame. -/
def Instr.isCommand : Instr → Bool
  | .wireWr _ _ _ _ => false
  | .wireRdreq _ => false
  | .wireRdresp _ _ _ => false
  | .crcClr => true
  | .crcByte _ => true
  | .encRdreq _ => true
  | .decRd _ _ _ _ _ _ => true
  | .encWr _ _ => true
  | .wrDone _ => true
  | .join32 _ _ => true
  | .split32 _ => true
  | .reserved0 => true
  | .reserved9 => true
  | .reservedA => true
  | .reservedB => true
  | .reservedC => true
  | .reservedD => true
  | .reservedE => true
  | .reservedF => true

/-- The instructions that leave `ACC` unchanged and are safe to interleave with a streamed checksum
(70_reset_and_hazards.md R249), and the wire frames, which the block does not observe (R245). -/
def Instr.keepsAcc : Instr → Bool
  | .crcClr => false
  | .crcByte _ => false
  | .encWr _ _ => false
  | .decRd _ wstat rxlen _ _ _ => wstat != 0x00#8 || rxlen != 3#2
  | .encRdreq _ => true
  | .wrDone _ => true
  | .join32 _ _ => true
  | .split32 _ => true
  | .reserved0 => true
  | .reserved9 => true
  | .reservedA => true
  | .reservedB => true
  | .reservedC => true
  | .reservedD => true
  | .reservedE => true
  | .reservedF => true
  | .wireWr _ _ _ _ => true
  | .wireRdreq _ => true
  | .wireRdresp _ _ _ => true

/-- The bytes a sequence of instructions feeds to a streamed checksum (40_crc_engine.md R105). -/
def streamedBytes : List Instr → List Byte
  | [] => []
  | .crcByte b :: is => b :: streamedBytes is
  | _ :: is => streamedBytes is

namespace Machine

/-- The record asks for no bus transfer: every field for the host's bus primitives reads as zero. -/
abbrev NoBusRequest (r : Result) : Prop :=
  r.dev7 = 0#7 ∧ r.tx0 = 0#8 ∧ r.tx1 = 0#8 ∧ r.tx2 = 0#8 ∧ r.tx3 = 0#8 ∧ r.txlen = 0#3 ∧ r.txhold = 0#1 ∧
    r.rxreq = 0#2 ∧ r.rxhold = 0#1

/-- The record returns no value: `RDATA`, `Y32`, `OLO16` and `OHI16` read as zero. -/
abbrev NoValue (r : Result) : Prop :=
  r.rdata = 0#16 ∧ r.y32 = 0#32 ∧ r.olo16 = 0#16 ∧ r.ohi16 = 0#16

/-- The record asks for the transfers of a read (30_encoding.md R70, 41_read_transaction.md R121). -/
abbrev AsksRead (r : Result) : Prop :=
  r.dev7 = 0x0B#7 ∧ r.tx1 = 0#8 ∧ r.tx2 = 0#8 ∧ r.tx3 = 0#8 ∧ r.txlen = 1#3 ∧ r.txhold = 1#1 ∧
    r.rxreq = 3#2 ∧ r.rxhold = 0#1

/-- The record asks for the transfer of a write, whose last byte is the checksum of all before it on the
wire (30_encoding.md R69, R70, 42_write_transaction.md R141). -/
abbrev AsksWrite (r : Result) : Prop :=
  r.dev7 = 0x0B#7 ∧ r.tx3 = checksum [0x16#8, r.tx0, r.tx1, r.tx2] ∧ r.crc = r.tx3 ∧ r.txlen = 4#3 ∧
    r.txhold = 0#1 ∧ r.rxreq = 0#2 ∧ r.rxhold = 0#1

/-- A record the block may answer with: a failure carries nothing (10_state.md R28), and whatever the host
is asked to put on the bus is a whole read request or a whole, correctly checksummed write. -/
abbrev LegalResult (r : Result) : Prop :=
  (r.status ≠ .ok → NoBusRequest r ∧ NoValue r) ∧
    (NoBusRequest r ∨ (AsksRead r ∧ NoValue r) ∨ (AsksWrite r ∧ NoValue r))

/-- A transfer of one of the three frames: address byte, length and ending (30_encoding.md R67, R68, R70). The
ending of a read response, a stop, is the model's reading (DEDUCED, log entry 17). -/
abbrev LegalTransfer (t : Transfer) : Prop :=
  (t.address = 0x16#8 ∧ t.payload.length = 4 ∧ t.stop = true) ∨
    (t.address = 0x16#8 ∧ t.payload.length = 1 ∧ t.stop = false) ∨
    (t.address = 0x17#8 ∧ t.payload.length = 3 ∧ t.stop = true)

/-- The machine's invariant: every record answered and every transfer made is legal. The two lists are the
model's own (DESIGN CHOICE, log entries 2 and 3). -/
abbrev LegalState (s : State) : Prop :=
  (∀ r ∈ s.results, LegalResult r) ∧ (∀ t ∈ s.bus, LegalTransfer t)

/-- The host's duty of an exclusive bus (70_reset_and_hazards.md R246), over the transfers made, oldest
first: each is a whole write, or a read request with its response right after it. That a whole read
ends with a stop is the model's reading (DEDUCED, log entry 17). -/
def exclusiveBus : List Transfer → Bool
  | [] => true
  | [t] => t.stop && t.address != 0x17#8
  | t :: u :: us =>
    if t.stop then t.address != 0x17#8 && exclusiveBus (u :: us)
    else u.address == 0x17#8 && u.stop && exclusiveBus us

end Machine

end Sys2Proof
end

