-- ==== Sys2Proof/Certificates/Slice0/Obligations.lean ====
section
/-! DEFINITION. The statements for the provers. Each docstring names the rules of spec/ it formalises; a
clause that is the model's own choice says so and names the log entry. -/

open Sys2Proof Sys2Proof.Machine

/-- 40_crc_engine.md R104: CRC_CLR completes in every state, clears `ACC`, answers OK with `CRC` the new `ACC`
and every other field zero, and changes nothing else. -/
def Obligations.CrcClrClearsAccumulator : Prop :=
  ∀ s : State, exec .crcClr s =
    .next { s with
      acc := 0x00#8
      results := s.results ++
        [{ status := .ok, crc := 0x00#8, dev7 := 0#7, tx0 := 0#8, tx1 := 0#8, tx2 := 0#8,
           tx3 := 0#8, txlen := 0#3, txhold := 0#1, rxreq := 0#2, rxhold := 0#1,
           rdata := 0#16, y32 := 0#32, olo16 := 0#16, ohi16 := 0#16 }] }

/-- 40_crc_engine.md R105: CRC_BYTE completes in every state and for every byte, with `ACC` the byte update of
the old `ACC`, and changes nothing else. -/
def Obligations.CrcByteFoldsByte : Prop :=
  ∀ (byte : Byte) (s : State), exec (.crcByte byte) s =
    .next { s with
      acc := byteStep s.acc byte
      results := s.results ++
        [{ status := .ok, crc := byteStep s.acc byte, dev7 := 0#7, tx0 := 0#8, tx1 := 0#8,
           tx2 := 0#8, tx3 := 0#8, txlen := 0#3, txhold := 0#1, rxreq := 0#2,
           rxhold := 0#1, rdata := 0#16, y32 := 0#32, olo16 := 0#16, ohi16 := 0#16 }] }

/-- 41_read_transaction.md R121: ENC_RDREQ completes in every state and for every `REG`, asks the host for a
held write of one byte and a read of three, and leaves `ACC` and all else unchanged. -/
def Obligations.EncRdreqBuildsReadRequest : Prop :=
  ∀ (reg : Byte) (s : State), exec (.encRdreq reg) s =
    .next { s with
      results := s.results ++
        [{ status := .ok, crc := s.acc, dev7 := 0x0B#7, tx0 := reg, tx1 := 0#8,
           tx2 := 0#8, tx3 := 0#8, txlen := 1#3, txhold := 1#1, rxreq := 3#2,
           rxhold := 0#1, rdata := 0#16, y32 := 0#32, olo16 := 0#16, ohi16 := 0#16 }] }

/-- 41_read_transaction.md R123 (with R120 and R122): DEC_RD completes in every state and for all operands. A bus
failure answers BUS_ERROR and leaves `ACC`, else `ACC` becomes the checksum of the five bytes, and the
answer is CHECKSUM_ERROR with no data where that differs from the third byte received, else OK with
the word assembled low byte first. Nothing else changes. -/
def Obligations.DecRdChecksTheResponse : Prop :=
  ∀ (reg wstat : Byte) (rxlen : BitVec 2) (resp0 resp1 resp2 : Byte) (s : State),
    exec (.decRd reg wstat rxlen resp0 resp1 resp2) s =
      if wstat ≠ 0x00#8 ∨ rxlen ≠ 3#2 then
        .next { s with
          results := s.results ++
            [{ status := .busError, crc := s.acc, dev7 := 0#7, tx0 := 0#8, tx1 := 0#8,
               tx2 := 0#8, tx3 := 0#8, txlen := 0#3, txhold := 0#1, rxreq := 0#2,
               rxhold := 0#1, rdata := 0#16, y32 := 0#32, olo16 := 0#16, ohi16 := 0#16 }] }
      else if checksum [0x16#8, reg, 0x17#8, resp0, resp1] ≠ resp2 then
        .next { s with
          acc := checksum [0x16#8, reg, 0x17#8, resp0, resp1]
          results := s.results ++
            [{ status := .checksumError,
               crc := checksum [0x16#8, reg, 0x17#8, resp0, resp1], dev7 := 0#7,
               tx0 := 0#8, tx1 := 0#8, tx2 := 0#8, tx3 := 0#8, txlen := 0#3,
               txhold := 0#1, rxreq := 0#2, rxhold := 0#1, rdata := 0#16, y32 := 0#32,
               olo16 := 0#16, ohi16 := 0#16 }] }
      else
        .next { s with
          acc := checksum [0x16#8, reg, 0x17#8, resp0, resp1]
          results := s.results ++
            [{ status := .ok, crc := checksum [0x16#8, reg, 0x17#8, resp0, resp1],
               dev7 := 0#7, tx0 := 0#8, tx1 := 0#8, tx2 := 0#8, tx3 := 0#8, txlen := 0#3,
               txhold := 0#1, rxreq := 0#2, rxhold := 0#1, rdata := resp1 ++ resp0,
               y32 := 0#32, olo16 := 0#16, ohi16 := 0#16 }] }

/-- 42_write_transaction.md R141 (with R140): ENC_WR completes in every state and for every `REG` and `WDATA`,
asks the host for one write of four bytes ended by a stop, puts the frame's checksum in `TX3` and in
`ACC`, and changes nothing else. -/
def Obligations.EncWrBuildsWriteFrame : Prop :=
  ∀ (reg : Byte) (wdata : Half) (s : State), exec (.encWr reg wdata) s =
    .next { s with
      acc := checksum [0x16#8, reg, wdata.extractLsb' 0 8, wdata.extractLsb' 8 8]
      results := s.results ++
        [{ status := .ok,
           crc := checksum [0x16#8, reg, wdata.extractLsb' 0 8, wdata.extractLsb' 8 8],
           dev7 := 0x0B#7, tx0 := reg, tx1 := wdata.extractLsb' 0 8,
           tx2 := wdata.extractLsb' 8 8,
           tx3 := checksum [0x16#8, reg, wdata.extractLsb' 0 8, wdata.extractLsb' 8 8],
           txlen := 4#3, txhold := 0#1, rxreq := 0#2, rxhold := 0#1, rdata := 0#16,
           y32 := 0#32, olo16 := 0#16, ohi16 := 0#16 }] }

/-- 42_write_transaction.md R143: WR_DONE completes in every state and for every `WSTAT`: OK where it is zero,
BUS_ERROR for every other value. `ACC` and all else are unchanged. -/
def Obligations.WrDoneReportsBusStatus : Prop :=
  ∀ (wstat : Byte) (s : State), exec (.wrDone wstat) s =
    if wstat ≠ 0x00#8 then
      .next { s with
        results := s.results ++
          [{ status := .busError, crc := s.acc, dev7 := 0#7, tx0 := 0#8, tx1 := 0#8,
             tx2 := 0#8, tx3 := 0#8, txlen := 0#3, txhold := 0#1, rxreq := 0#2,
             rxhold := 0#1, rdata := 0#16, y32 := 0#32, olo16 := 0#16, ohi16 := 0#16 }] }
    else
      .next { s with
        results := s.results ++
          [{ status := .ok, crc := s.acc, dev7 := 0#7, tx0 := 0#8, tx1 := 0#8, tx2 := 0#8,
             tx3 := 0#8, txlen := 0#3, txhold := 0#1, rxreq := 0#2, rxhold := 0#1,
             rdata := 0#16, y32 := 0#32, olo16 := 0#16, ohi16 := 0#16 }] }

/-- 43_word_pair.md R160: JOIN32 completes in every state and for all words. `Y32` is the upper word shifted
left by 16 plus the lower word, which is the two concatenated, so the sum never carries. `ACC` and all
else are unchanged. -/
def Obligations.Join32JoinsWords : Prop :=
  ∀ (lo16 hi16 : Half) (s : State),
    (hi16.setWidth 32 <<< 16) + lo16.setWidth 32 = hi16 ++ lo16 ∧
    exec (.join32 lo16 hi16) s =
      .next { s with
        results := s.results ++
          [{ status := .ok, crc := s.acc, dev7 := 0#7, tx0 := 0#8, tx1 := 0#8, tx2 := 0#8,
             tx3 := 0#8, txlen := 0#3, txhold := 0#1, rxreq := 0#2, rxhold := 0#1,
             rdata := 0#16, y32 := (hi16.setWidth 32 <<< 16) + lo16.setWidth 32,
             olo16 := 0#16, ohi16 := 0#16 }] }

/-- 43_word_pair.md R161: SPLIT32 completes in every state and for every value: the lower word is its truncation,
the upper word its logical shift right by 16. `ACC` and all else are unchanged. -/
def Obligations.Split32SplitsValue : Prop :=
  ∀ (x32 : Pair) (s : State), exec (.split32 x32) s =
    .next { s with
      results := s.results ++
        [{ status := .ok, crc := s.acc, dev7 := 0#7, tx0 := 0#8, tx1 := 0#8, tx2 := 0#8,
           tx3 := 0#8, txlen := 0#3, txhold := 0#1, rxreq := 0#2, rxhold := 0#1,
           rdata := 0#16, y32 := 0#32, olo16 := x32.setWidth 16,
           ohi16 := (x32 >>> 16).setWidth 16 }] }

/-- 60_exceptions.md R203: each of the eight reserved opcodes completes in every state with ILLEGAL_COMMAND,
`CRC` the unchanged `ACC`, every other field zero, and changes nothing else. -/
def Obligations.ReservedOpcodesAreIllegal : Prop :=
  ∀ (i : Instr) (s : State),
    i ∈ [Instr.reserved0, .reserved9, .reservedA, .reservedB, .reservedC, .reservedD, .reservedE,
      .reservedF] →
    exec i s =
      .next { s with
        results := s.results ++
          [{ status := .illegalCommand, crc := s.acc, dev7 := 0#7, tx0 := 0#8, tx1 := 0#8,
             tx2 := 0#8, tx3 := 0#8, txlen := 0#3, txhold := 0#1, rxreq := 0#2,
             rxhold := 0#1, rdata := 0#16, y32 := 0#32, olo16 := 0#16, ohi16 := 0#16 }] }

/-- 30_encoding.md R67, R68 and R70, 70_reset_and_hazards.md R245: each wire frame completes in every state and
for all bytes. It adds one transfer to the bus, with the frame's address byte, its bytes in order and its
ending, and `ACC`, the results and the host's list are unchanged. R68 gives the ending of WIRE_WR and
WIRE_RDREQ. That a WIRE_RDRESP transfer ends with a stop is the model's reading (log entry 17, DEDUCED from
`RXHOLD = 0`), and that transfers are kept as a record in the state is its choice (log entry 3). -/
def Obligations.WireFramesPassOnTheBus : Prop :=
  ∀ s : State,
    (∀ reg lo hi crc : Byte, exec (.wireWr reg lo hi crc) s =
      .next { s with bus := s.bus ++
        [{ address := 0x16#8, payload := [reg, lo, hi, crc], stop := true }] }) ∧
    (∀ reg : Byte, exec (.wireRdreq reg) s =
      .next { s with bus := s.bus ++ [{ address := 0x16#8, payload := [reg], stop := false }] }) ∧
    (∀ lo hi crc : Byte, exec (.wireRdresp lo hi crc) s =
      .next { s with bus := s.bus ++
        [{ address := 0x17#8, payload := [lo, hi, crc], stop := true }] })

/-- 30_encoding.md R60: `OP` alone selects the command, by the opcode map, and the command takes its operands
from the ports of its fields. -/
def Obligations.OpcodeMapDecodes : Prop :=
  ∀ c : Command,
    (c.op = 0x0#4 → decode (.command c) = .ok .reserved0) ∧
    (c.op = 0x1#4 → decode (.command c) = .ok .crcClr) ∧
    (c.op = 0x2#4 → decode (.command c) = .ok (.crcByte c.byte)) ∧
    (c.op = 0x3#4 → decode (.command c) = .ok (.encRdreq c.reg)) ∧
    (c.op = 0x4#4 →
      decode (.command c) = .ok (.decRd c.reg c.wstat c.rxlen c.resp0 c.resp1 c.resp2)) ∧
    (c.op = 0x5#4 → decode (.command c) = .ok (.encWr c.reg c.wdata)) ∧
    (c.op = 0x6#4 → decode (.command c) = .ok (.wrDone c.wstat)) ∧
    (c.op = 0x7#4 → decode (.command c) = .ok (.join32 c.lo16 c.hi16)) ∧
    (c.op = 0x8#4 → decode (.command c) = .ok (.split32 c.x32)) ∧
    (c.op = 0x9#4 → decode (.command c) = .ok .reserved9) ∧
    (c.op = 0xA#4 → decode (.command c) = .ok .reservedA) ∧
    (c.op = 0xB#4 → decode (.command c) = .ok .reservedB) ∧
    (c.op = 0xC#4 → decode (.command c) = .ok .reservedC) ∧
    (c.op = 0xD#4 → decode (.command c) = .ok .reservedD) ∧
    (c.op = 0xE#4 → decode (.command c) = .ok .reservedE) ∧
    (c.op = 0xF#4 → decode (.command c) = .ok .reservedF)

/-- 30_encoding.md R60, R67, R68: words written out from the spec decode to the instructions they stand for, one
or more of each family: CRC_CLR, ENC_RDREQ, ENC_WR, JOIN32, a reserved opcode, and program P3's three
frames for register 0x04 and value 0x1234. How a table word is numbered is the model's reading (log
entry 5). -/
def Obligations.TableWordsDecode : Prop :=
  decodeTableWord 8 0x01 = some .crcClr ∧
  decodeTableWord 8 0x03 = some (.encRdreq 0x00#8) ∧
  decodeTableWord 8 0x05 = some (.encWr 0x00#8 0x0000#16) ∧
  decodeTableWord 8 0x07 = some (.join32 0x0000#16 0x0000#16) ∧
  decodeTableWord 8 0x09 = some .reserved9 ∧
  decodeTableWord 40 0x160434126B = some (.wireWr 0x04#8 0x34#8 0x12#8 0x6B#8) ∧
  decodeTableWord 16 0x1604 = some (.wireRdreq 0x04#8) ∧
  decodeTableWord 32 0x17341246 = some (.wireRdresp 0x34#8 0x12#8 0x46#8)

/-- 30_encoding.md sections 1 and 3: decoding the encoding of any instruction gives it back, every operand at
every value. -/
def Obligations.DecodeEncodeRoundTrip : Prop :=
  ∀ i : Instr, decode (encode i) = .ok i

/-- 30_encoding.md R60, R62, R67, R68, R70 and 10_state.md R26: an encoded form decodes to an instruction exactly
when, with the ports its opcode does not read set to zero, it is that instruction's encoding. So no two
forms share an instruction but for ignored ports, and nothing else on the wire is accepted. -/
def Obligations.DecodedFormsAreTheEncodedOnes : Prop :=
  ∀ (e : Encoded) (i : Instr), decode e = .ok i ↔ canonical e = encode i

/-- 30_encoding.md R67, 00_scope.md R6: for every device address, the write address byte is the address with bit 0
clear, the read address byte the same with bit 0 set. The block's are 0x16 and 0x17. -/
def Obligations.AddressBytesCarryDirection : Prop :=
  (∀ cfg : Config,
    writeAddress cfg = cfg.devAddr7 ++ 0#1 ∧ readAddress cfg = cfg.devAddr7 ++ 1#1 ∧
    readAddress cfg = writeAddress cfg ||| 1#8 ∧
    (writeAddress cfg).toNat = 2 * cfg.devAddr7.toNat) ∧
  writeAddress Config.block = 0x16#8 ∧ readAddress Config.block = 0x17#8

/-- 40_crc_engine.md R100: the round in exact arithmetic: double the value, drop what overflows 8 bits, and where
bit 7 was set before the shift, XOR the polynomial 0x07. -/
def Obligations.RoundShiftsAndReduces : Prop :=
  ∀ a : Byte, (crcRound a).toNat =
    if 128 ≤ a.toNat then (2 * a.toNat % 256) ^^^ 7 else 2 * a.toNat

/-- 40_crc_engine.md R101, R102: the byte update is eight rounds of the XOR of accumulator and byte, and the
checksum is its left fold from zero, so a byte appended is one more byte update. -/
def Obligations.ChecksumFoldsFromZero : Prop :=
  (∀ acc b : Byte, byteStep acc b = crcRound^[8] (acc ^^^ b)) ∧
  checksum [] = 0x00#8 ∧
  (∀ (bs : List Byte) (b : Byte), checksum (bs ++ [b]) = byteStep (checksum bs) b)

/-- 40_crc_engine.md R106: feeding the 8 bits of a byte one at a time, most significant first, gives the byte update. -/
def Obligations.BitSerialEqualsByteStep : Prop :=
  ∀ acc b : Byte, bitSerialByte acc b = byteStep acc b

/-- 40_crc_engine.md R107: folding the accumulator's own value clears it, so a sequence with its checksum appended
has checksum zero. -/
def Obligations.ChecksumResidueIsZero : Prop :=
  (∀ c : Byte, byteStep c c = 0x00#8) ∧
  (∀ bs : List Byte, checksum (bs ++ [checksum bs]) = 0x00#8)

/-- 40_crc_engine.md R108: the round is linear and a bijection, the checksum of equally long sequences is linear
byte by byte, and sequences that differ in exactly one byte have different checksums. -/
def Obligations.ChecksumIsLinearAndDetectsOneByte : Prop :=
  (∀ a b : Byte, crcRound (a ^^^ b) = crcRound a ^^^ crcRound b) ∧
  crcRound 0x00#8 = 0x00#8 ∧
  Function.Bijective crcRound ∧
  (∀ bs cs : List Byte, bs.length = cs.length →
    checksum bs ^^^ checksum cs = checksum (List.zipWith (· ^^^ ·) bs cs)) ∧
  (∀ (pre post : List Byte) (x y : Byte), x ≠ y →
    checksum (pre ++ x :: post) ≠ checksum (pre ++ y :: post))

/-- 41_read_transaction.md R124: take any register and value and the response a correct device sends, the bus
reporting success. If exactly one received byte is changed, or the register passed is another one,
DEC_RD completes with CHECKSUM_ERROR and returns no data, in every state. -/
def Obligations.CorruptedResponseIsDetected : Prop :=
  ∀ (s : State) (reg lo hi : Byte),
    let crc := checksum [0x16#8, reg, 0x17#8, lo, hi]
    let detected := fun i : Instr => ∃ (t : State) (r : Result), exec i s = .next t ∧
      t.results = s.results ++ [r] ∧ r.status = .checksumError ∧ r.rdata = 0x0000#16
    (∀ x : Byte, x ≠ lo → detected (.decRd reg 0x00#8 3#2 x hi crc)) ∧
    (∀ x : Byte, x ≠ hi → detected (.decRd reg 0x00#8 3#2 lo x crc)) ∧
    (∀ x : Byte, x ≠ crc → detected (.decRd reg 0x00#8 3#2 lo hi x)) ∧
    (∀ x : Byte, x ≠ reg → detected (.decRd x 0x00#8 3#2 lo hi crc))

/-- 10_state.md R28: for every command in every state, a result field that the command's rule does not write reads
as zero (the column "written by" of R27), and a command that fails writes only `STATUS` and `CRC`. -/
def Obligations.UnwrittenFieldsReadZero : Prop :=
  ∀ (i : Instr) (s : State), i.isCommand = true →
    ∃ (t : State) (r : Result), exec i s = .next t ∧ t.results = s.results ++ [r] ∧
      (r.status ≠ .ok → NoBusRequest r ∧ NoValue r) ∧
      ((∀ reg, i ≠ .encRdreq reg) → (∀ reg v, i ≠ .encWr reg v) → NoBusRequest r) ∧
      ((∀ reg v, i ≠ .encWr reg v) → r.tx1 = 0#8 ∧ r.tx2 = 0#8 ∧ r.tx3 = 0#8) ∧
      ((∀ reg, i ≠ .encRdreq reg) → r.rxreq = 0#2 ∧ r.rxhold = 0#1) ∧
      ((∀ reg wstat rxlen r0 r1 r2, i ≠ .decRd reg wstat rxlen r0 r1 r2) → r.rdata = 0#16) ∧
      ((∀ lo hi, i ≠ .join32 lo hi) → r.y32 = 0#32) ∧
      ((∀ x, i ≠ .split32 x) → r.olo16 = 0#16 ∧ r.ohi16 = 0#16)

/-- 41_read_transaction.md R125: every DEC_RD outcome other than OK returns `RDATA = 0x0000`, and where fewer than
three bytes came back the outcome is BUS_ERROR, whatever the other operands. -/
def Obligations.FailedReadReturnsNoData : Prop :=
  ∀ (reg wstat : Byte) (rxlen : BitVec 2) (resp0 resp1 resp2 : Byte) (s : State),
    ∃ (t : State) (r : Result), exec (.decRd reg wstat rxlen resp0 resp1 resp2) s = .next t ∧
      t.results = s.results ++ [r] ∧ (r.status ≠ .ok → r.rdata = 0x0000#16) ∧
      (rxlen.toNat < 3 → r.status = .busError ∧ r.rdata = 0x0000#16)

/-- 10_state.md R29, 20_memory.md R46: every command completes in every state with exactly one record more, whose
`CRC` is the value `ACC` then holds, and it changes neither the bus nor the host's list nor an earlier
record. The frame of all sixteen commands. -/
def Obligations.CommandsAnswerOnceAndTouchNothingElse : Prop :=
  ∀ (i : Instr) (s : State), i.isCommand = true →
    ∃ (t : State) (r : Result), exec i s = .next t ∧ t.results = s.results ++ [r] ∧ r.crc = t.acc ∧
      t.bus = s.bus ∧ t.pending = s.pending

/-- 10_state.md section 4, 70_reset_and_hazards.md R249: ENC_RDREQ, WR_DONE, JOIN32, SPLIT32, DEC_RD with a bus
error, the reserved opcodes, and the wire frames complete in every state with `ACC` unchanged. -/
def Obligations.AccumulatorKeptByOtherInstructions : Prop :=
  ∀ (i : Instr) (s : State), i.keepsAcc = true → ∃ t : State, exec i s = .next t ∧ t.acc = s.acc

/-- 10_state.md R20, R23, 70_reset_and_hazards.md R245, R248: a command depends on nothing but its operands and `ACC`.
In any two states with the same `ACC`, whatever was answered, passed on the bus or issued, it completes
with the same record and the same `ACC`. -/
def Obligations.CommandsSeeOnlyTheAccumulator : Prop :=
  ∀ (i : Instr) (s u : State), i.isCommand = true → s.acc = u.acc →
    ∃ (t v : State) (r : Result), exec i s = .next t ∧ exec i u = .next v ∧
      t.results = s.results ++ [r] ∧ v.results = u.results ++ [r] ∧ t.acc = v.acc

/-- 40_crc_engine.md R103, 70_reset_and_hazards.md R241: ENC_WR, and DEC_RD whose bus primitives succeeded, complete
with the same record and the same `ACC` in ANY two states, so no frame depends on what `ACC` held. -/
def Obligations.FrameCommandsForgetTheAccumulator : Prop :=
  ∀ s u : State,
    (∀ (reg : Byte) (wdata : Half), ∃ (t v : State) (r : Result),
      exec (.encWr reg wdata) s = .next t ∧ exec (.encWr reg wdata) u = .next v ∧
      t.results = s.results ++ [r] ∧ v.results = u.results ++ [r] ∧ t.acc = v.acc) ∧
    (∀ reg resp0 resp1 resp2 : Byte, ∃ (t v : State) (r : Result),
      exec (.decRd reg 0x00#8 3#2 resp0 resp1 resp2) s = .next t ∧
      exec (.decRd reg 0x00#8 3#2 resp0 resp1 resp2) u = .next v ∧
      t.results = s.results ++ [r] ∧ v.results = u.results ++ [r] ∧ t.acc = v.acc)

/-- 60_exceptions.md R200, R201, R202, R204: when the host's next action is a command, of any opcode and with any
ports, the step completes it, and its one record's status code is the first that applies:
3 for a reserved opcode, 1 where DEC_RD or WR_DONE is told of a bus failure, 2 where DEC_RD's checksum
does not match, else 0. With code 1 or 3 `ACC` is unchanged, with code 2 it holds the computed checksum. -/
def Obligations.StatusOfEveryCommandByPriority : Prop :=
  ∀ (s : State) (c : Command) (rest : List HostAction),
    s.pending = .present (.command c) :: rest →
    ∃ (t : State) (r : Result), step s = .next t ∧ t.pending = rest ∧ t.results = s.results ++ [r] ∧
      r.crc = t.acc ∧
      statusCode r.status =
        (if c.op = 0x0#4 ∨ 9 ≤ c.op.toNat then 3#2
        else if (c.op = 0x4#4 ∧ (c.wstat ≠ 0x00#8 ∨ c.rxlen ≠ 3#2)) ∨
            (c.op = 0x6#4 ∧ c.wstat ≠ 0x00#8) then 1#2
        else if c.op = 0x4#4 ∧ checksum [0x16#8, c.reg, 0x17#8, c.resp0, c.resp1] ≠ c.resp2 then 2#2
        else 0#2) ∧
      (statusCode r.status = 1#2 ∨ statusCode r.status = 3#2 → t.acc = s.acc) ∧
      (statusCode r.status = 2#2 →
        t.acc = checksum [0x16#8, c.reg, 0x17#8, c.resp0, c.resp1])

/-- 30_encoding.md R62: decoding is total: whatever the opcode and the ports, the host's next command is decoded and
completed by the step, and it ends with ILLEGAL_COMMAND exactly when `OP` is 0x0 or 0x9 to 0xF, then with
`ACC` unchanged. -/
def Obligations.EveryOpcodeIsACommandOrIllegal : Prop :=
  ∀ (s : State) (c : Command) (rest : List HostAction),
    s.pending = .present (.command c) :: rest →
    ∃ (i : Instr) (t : State) (r : Result), decode (.command c) = .ok i ∧ step s = .next t ∧
      t.results = s.results ++ [r] ∧
      (r.status = .illegalCommand ↔ c.op ∈ [0x0#4, 0x9#4, 0xA#4, 0xB#4, 0xC#4, 0xD#4, 0xE#4, 0xF#4]) ∧
      (r.status = .illegalCommand → t.acc = s.acc)

/-- 20_memory.md R47, 00_scope.md R10: when the host's next action presents a form that decodes to an instruction,
one step takes that action off the host's list, changes nothing else around it, and performs the whole
instruction. -/
def Obligations.StepRunsTheNextInstruction : Prop :=
  ∀ (s : State) (e : Encoded) (rest : List HostAction) (i : Instr),
    s.pending = .present e :: rest → decode e = .ok i →
    step s = exec i { s with pending := rest }

/-- 30_encoding.md R60, R68: a table word that the decoder reads, issued as the host's next action, is performed by the
very next step, and whatever the host had issued before is still there. How a word is issued is the
model's choice (log entries 1 and 5). -/
def Obligations.StepRunsATableWord : Prop :=
  ∀ (s : State) (nbits w : Nat) (i : Instr),
    decodeTableWord nbits w = some i → step (s.withFetchWord nbits w) = exec i s

/-- 70_reset_and_hazards.md R245, R252: with nothing issued a step changes nothing, and bytes on the bus that are no
frame of the block are taken off the host's list and change nothing else. Both are the model's choice of
what a step is where the block has nothing to perform (log entries 4 and 11). -/
def Obligations.StepWithoutAnInstruction : Prop :=
  (∀ s : State, s.pending = [] → step s = .next s) ∧
  (∀ (s : State) (bytes : List Byte) (rest : List HostAction) (err : DecodeError),
    s.pending = .present (.wire bytes) :: rest → decodeFrame bytes = .error err →
    step s = .next { s with pending := rest })

/-- 10_state.md R30: after reset `ACC` is 0x00, in the state the machine starts in and after a reset by the
host in any state, whatever `ACC` held. -/
def Obligations.ResetClearsTheAccumulator : Prop :=
  State.reset.acc = 0x00#8 ∧
  (∀ (s : State) (rest : List HostAction), s.pending = .reset :: rest →
    ∃ t : State, step s = .next t ∧ t.acc = 0x00#8)

/-- 70_reset_and_hazards.md R240, D30: a reset by the host changes `ACC` and takes itself off the host's list. That
it leaves the answers given, the bus and the rest of the list as they are is the model's reading (log
entry 7). -/
def Obligations.ResetTouchesOnlyTheAccumulator : Prop :=
  ∀ (s : State) (rest : List HostAction), s.pending = .reset :: rest →
    step s = .next { s with acc := 0x00#8, pending := rest }

/-- 30_encoding.md R69, 10_state.md R28: the state after reset meets the invariant, with nothing answered, nothing
passed on the bus and nothing issued (the model's choice for its interface fields, log entries 1 to 3). -/
def Obligations.ResetMeetsTheInvariant : Prop :=
  LegalState State.reset ∧ State.reset.results = [] ∧ State.reset.bus = [] ∧ State.reset.pending = []

/-- 30_encoding.md R69, R70, 10_state.md R28, 20_memory.md R41: from EVERY state that meets it, a step leads to a state
that meets it: each record answered is a failure with nothing in it, an answer with no bus request, a
whole read request, or a whole write with the checksum over every byte before it on the wire, and each
transfer on the bus addresses the one device with a frame of legal length and ending. The lists of records
and of transfers are the model's choice (log entries 2 and 3), and the ending of a read response, a stop,
its reading (log entry 17). -/
def Obligations.StepKeepsTheInvariant : Prop :=
  ∀ s t : State, LegalState s → step s = .next t → LegalState t

/-- 70_reset_and_hazards.md R252, 60_exceptions.md R205: a step answers a next state from every state, and takes
exactly the first of the host's actions, where there is one. That a step with nothing issued goes on, and
one with bytes that are no frame, is the model's choice (log entries 4 and 11). -/
def Obligations.StepNeverStops : Prop :=
  ∀ s : State, ∃ t : State, step s = .next t ∧ t.pending = s.pending.tail

/-- 70_reset_and_hazards.md R252, 20_memory.md R47: a run over any finite list of commands, from any state, ends after
its last command with what the host issued after them still to do, exactly one record a command, every
earlier record kept, and nothing on the bus touched. In order: for each k, the state after the first k
commands holds the first k records, the k-th command performed there leads to the state after k + 1
commands, and the record it answers there is the k-th, with ILLEGAL_COMMAND exactly for a reserved opcode.
That the records are kept as a list in the state is the model's choice (log entry 2). -/
def Obligations.RunAnswersEveryCommandInOrder : Prop :=
  ∀ (s : State) (cs : List Command) (rest : List HostAction),
    let start : State := { s with pending := cs.map (fun c => .present (.command c)) ++ rest }
    ∃ (t : State) (rs : List Result),
      Sys2Proof.core.run cs.length start = .next t ∧
      t.pending = rest ∧ t.results = s.results ++ rs ∧ rs.length = cs.length ∧ t.bus = s.bus ∧
      (∀ (k : Nat) (c : Command), cs[k]? = some c →
        ∃ (u v : State) (r : Result),
          Sys2Proof.core.run k start = .next u ∧ u.results = s.results ++ rs.take k ∧
          exec (decodeCommand c) { u with pending := u.pending.tail } = .next v ∧
          Sys2Proof.core.run (k + 1) start = .next v ∧
          v.results = u.results ++ [r] ∧ rs[k]? = some r ∧
          (r.status = .illegalCommand ↔ (c.op = 0x0#4 ∨ 9 ≤ c.op.toNat)))

/-- 30_encoding.md R64: the host issues CHECKSUM b0, ..., b(n-1) as one CRC_CLR and one CRC_BYTE a byte. From any state,
with any list of bytes, the empty one too, those n + 1 steps leave `ACC` the checksum of the bytes and
what the host issued after them still to do. -/
def Obligations.ChecksumPseudoInstruction : Prop :=
  ∀ (s : State) (bytes : List Byte) (rest : List HostAction),
    ∃ t : State,
      Sys2Proof.core.run (bytes.length + 1) { s with pending := pseudoChecksum bytes ++ rest } =
        .next t ∧
      t.acc = checksum bytes ∧ t.pending = rest

/-- 70_reset_and_hazards.md R249: a streamed checksum is not disturbed by any number of interleaved instructions of
those that leave `ACC` unchanged: after CRC_CLR and a run of CRC_BYTEs mixed with them, issued in any
order from any state, `ACC` is the checksum of the bytes fed. -/
def Obligations.StreamSurvivesSafeInterleaving : Prop :=
  ∀ (s : State) (is : List Instr) (rest : List HostAction),
    (∀ i ∈ is, i.keepsAcc = true ∨ ∃ b : Byte, i = .crcByte b) →
    ∃ t : State,
      Sys2Proof.core.run (is.length + 1)
        { s with pending := (Instr.crcClr :: is).map (fun i => .present (encode i)) ++ rest } = .next t ∧
      t.acc = checksum (streamedBytes is) ∧ t.pending = rest

/-- 42_write_transaction.md R144: with a device that stores what it is sent and answers low byte first with a correct
checksum, the six steps of a write and a read return the value written with status OK, for every register,
every value and every state. -/
def Obligations.WriteThenReadBackRoundTrip : Prop :=
  ∀ (s : State) (reg : Byte) (v : Half),
    let lo := v.extractLsb' 0 8
    let hi := v.extractLsb' 8 8
    ∃ (t1 t2 t3 t4 : State) (r1 r2 r3 r4 : Result),
      exec (.encWr reg v) s = .next t1 ∧ exec (.wrDone 0x00#8) t1 = .next t2 ∧
      exec (.encRdreq reg) t2 = .next t3 ∧
      exec (.decRd reg 0x00#8 3#2 lo hi (checksum [0x16#8, reg, 0x17#8, lo, hi])) t3 = .next t4 ∧
      t4.results = s.results ++ [r1, r2, r3, r4] ∧
      r1.tx0 = reg ∧ r1.tx1 = lo ∧ r1.tx2 = hi ∧ r2.status = .ok ∧
      r4.status = .ok ∧ r4.rdata = v

/-- 43_word_pair.md R162: for every 32-bit value, JOIN32 of the two words SPLIT32 answers gives it back, and for every
pair of words SPLIT32 of the value JOIN32 answers gives them back, in every state. -/
def Obligations.SplitJoinAreInverse : Prop :=
  (∀ (s : State) (x : Pair), ∃ (t u : State) (r q : Result),
    exec (.split32 x) s = .next t ∧ t.results = s.results ++ [r] ∧
    exec (.join32 r.olo16 r.ohi16) t = .next u ∧ u.results = t.results ++ [q] ∧ q.y32 = x) ∧
  (∀ (s : State) (lo hi : Half), ∃ (t u : State) (r q : Result),
    exec (.join32 lo hi) s = .next t ∧ t.results = s.results ++ [r] ∧
    exec (.split32 r.y32) t = .next u ∧ u.results = t.results ++ [q] ∧ q.olo16 = lo ∧ q.ohi16 = hi)

/-- 30_encoding.md R68, R69, 70_reset_and_hazards.md R245: the bus write the host makes from ENC_WR's record is the
transfer of a well-formed WIRE_WR frame, and the bus write and read it makes from ENC_RDREQ's record are
those of WIRE_RDREQ and, for a device that answers three bytes, WIRE_RDRESP. Whatever the states. That a
frame is recorded in the list `bus` is the model's choice (log entry 3), and that a WIRE_RDRESP transfer
ends with a stop, as the read not held by `RXHOLD = 0` does, its reading (log entry 17). -/
def Obligations.CommandResultsAreTheWireFrames : Prop :=
  (∀ (s u : State) (reg : Byte) (v : Half), ∃ (t : State) (r : Result),
    exec (.encWr reg v) s = .next t ∧ t.results = s.results ++ [r] ∧
    (Instr.wireWr r.tx0 r.tx1 r.tx2 r.tx3).wellFormed = true ∧
    exec (.wireWr r.tx0 r.tx1 r.tx2 r.tx3) u = .next { u with bus := u.bus ++ [hostBusWrite r] }) ∧
  (∀ (s u : State) (reg lo hi crc : Byte), ∃ (t : State) (r : Result),
    exec (.encRdreq reg) s = .next t ∧ t.results = s.results ++ [r] ∧
    exec (.wireRdreq reg) u = .next { u with bus := u.bus ++ [hostBusWrite r] } ∧
    r.rxreq.toNat = [lo, hi, crc].length ∧
    exec (.wireRdresp lo hi crc) u =
      .next { u with bus := u.bus ++ [hostBusRead r [lo, hi, crc]] })

/-- 70_reset_and_hazards.md R246: from a bus on which every transaction is whole, a write frame leaves it so, and a
read request leaves a transaction open that its response closes, for all bytes. That the response closes
it, by ending with a stop, is the model's reading (log entry 17), and the list `bus` that the statement is
over is its choice (log entry 3). -/
def Obligations.WholeTransactionsKeepTheBusExclusive : Prop :=
  ∀ s : State, exclusiveBus s.bus = true →
    (∀ reg lo hi crc : Byte, ∃ t : State,
      exec (.wireWr reg lo hi crc) s = .next t ∧ exclusiveBus t.bus = true) ∧
    (∀ reg lo hi crc : Byte, ∃ t u : State,
      exec (.wireRdreq reg) s = .next t ∧ exclusiveBus t.bus = false ∧
      exec (.wireRdresp lo hi crc) t = .next u ∧ exclusiveBus u.bus = true)

/-- 30_encoding.md R65: READ is ENC_RDREQ and DEC_RD, two records. It ends with BUS_ERROR where the host's write
failed or fewer than three bytes came back, else with CHECKSUM_ERROR where their checksum does not match,
else with OK and the word read. WRITE is ENC_WR and WR_DONE, two records, the first with the frame's
bytes, and ends with OK where the bus status is zero, else BUS_ERROR. For every register, every value and
whatever the bus gives back. -/
def Obligations.ReadAndWriteAreTwoCommandsEach : Prop :=
  (∀ (reg : Byte) (b : BusRead) (s : State), ∃ (t : State) (r q : Result),
    pseudoRead reg b s = .next t ∧ t.results = s.results ++ [r, q] ∧
    r.dev7 = 0x0B#7 ∧ r.tx0 = reg ∧ r.txlen = 1#3 ∧ r.txhold = 1#1 ∧ r.rxreq = 3#2 ∧ r.rxhold = 0#1 ∧
    q.status =
      (if b.wstat ≠ 0x00#8 ∨ b.rxlen ≠ 3#2 then .busError
      else if checksum [0x16#8, reg, 0x17#8, b.resp0, b.resp1] ≠ b.resp2 then .checksumError
      else .ok) ∧
    q.rdata = (if q.status = .ok then b.resp1 ++ b.resp0 else 0x0000#16)) ∧
  (∀ (reg : Byte) (v : Half) (wstat : Byte) (s : State), ∃ (t : State) (r q : Result),
    pseudoWrite reg v wstat s = .next t ∧ t.results = s.results ++ [r, q] ∧
    r.tx0 = reg ∧ r.tx2 ++ r.tx1 = v ∧ r.tx3 = checksum [0x16#8, reg, r.tx1, r.tx2] ∧
    r.txlen = 4#3 ∧ r.txhold = 0#1 ∧
    q.status = (if wstat ≠ 0x00#8 then .busError else .ok))

/-- 30_encoding.md R66, 60_exceptions.md R208: READ32 reads the register at addr, then the one at (addr + 1) mod 256,
then joins. Where both reads check it answers OK with the upper word above the lower. Where the first read
fails it stops there, after two commands, with that read's status. Where only the second fails it stops
after four, with that one's. The status of a failed read is BUS_ERROR where its write failed or fewer than
three bytes came back, else CHECKSUM_ERROR. The requests made carry addr and addr + 1 in `TX0`. -/
def Obligations.Read32JoinsThePairOrStops : Prop :=
  ∀ (addr : Byte) (b1 b2 : BusRead) (s : State),
    let statusOf : Byte → BusRead → Status := fun reg b =>
      if b.wstat ≠ 0x00#8 ∨ b.rxlen ≠ 3#2 then .busError
      else if checksum [0x16#8, reg, 0x17#8, b.resp0, b.resp1] ≠ b.resp2 then .checksumError
      else .ok
    ∃ (t : State) (rs : List Result) (r : Result),
      pseudoRead32 addr b1 b2 s = .next t ∧ t.results = s.results ++ rs ++ [r] ∧
      (statusOf addr b1 = .ok → statusOf (addr + 1#8) b2 = .ok →
        rs.map (·.tx0) = [addr, 0x00#8, addr + 1#8, 0x00#8] ∧ r.status = .ok ∧
        r.y32 = (b2.resp1 ++ b2.resp0 ++ (b1.resp1 ++ b1.resp0 : Half) : Pair)) ∧
      (statusOf addr b1 ≠ .ok →
        rs.map (·.tx0) = [addr] ∧ r.status = statusOf addr b1 ∧ NoBusRequest r ∧ NoValue r) ∧
      (statusOf addr b1 = .ok → statusOf (addr + 1#8) b2 ≠ .ok →
        rs.map (·.tx0) = [addr, 0x00#8, addr + 1#8] ∧ r.status = statusOf (addr + 1#8) b2 ∧
        NoBusRequest r ∧ NoValue r)

/-- 30_encoding.md R66, 60_exceptions.md R208: WRITE32 splits the value, writes the lower word to addr, then the upper word
to (addr + 1) mod 256, and stops with BUS_ERROR at the first write whose bus status is not zero. Each
write's frame carries its register, its word low byte first and its checksum. -/
def Obligations.Write32WritesThePairOrStops : Prop :=
  ∀ (addr : Byte) (x : Pair) (wstat1 wstat2 : Byte) (s : State),
    ∃ (t : State) (r0 r1 r2 : Result) (more : List Result),
      pseudoWrite32 addr x wstat1 wstat2 s = .next t ∧
      t.results = s.results ++ [r0, r1, r2] ++ more ∧
      r0.status = .ok ∧ r0.olo16 = x.extractLsb' 0 16 ∧ r0.ohi16 = x.extractLsb' 16 16 ∧
      r1.tx0 = addr ∧ r1.tx2 ++ r1.tx1 = x.extractLsb' 0 16 ∧
      r1.tx3 = checksum [0x16#8, addr, r1.tx1, r1.tx2] ∧
      (wstat1 ≠ 0x00#8 → r2.status = .busError ∧ more = []) ∧
      (wstat1 = 0x00#8 → r2.status = .ok ∧
        ∃ r3 r4 : Result, more = [r3, r4] ∧ r3.tx0 = addr + 1#8 ∧
          r3.tx2 ++ r3.tx1 = x.extractLsb' 16 16 ∧
          r3.tx3 = checksum [0x16#8, addr + 1#8, r3.tx1, r3.tx2] ∧
          r4.status = (if wstat2 ≠ 0x00#8 then .busError else .ok))

/-- 70_reset_and_hazards.md R243, 60_exceptions.md R208: the init sequence writes the four registers in order, the third
with 0x0001 and the fourth with 0x0040. At the first write whose bus status is not zero it stops with
BUS_ERROR, with the records of the steps done still there, all of them OK. For all addresses and values of
the open parameter. -/
def Obligations.InitWritesFourRegistersOrStops : Prop :=
  ∀ (v : InitValues) (w1 w2 w3 w4 : Byte) (s : State),
    ∃ (t : State) (rs : List Result),
      pseudoInit v w1 w2 w3 w4 s = .next t ∧ t.results = s.results ++ rs ∧
      rs.length =
        (if w1 ≠ 0x00#8 then 2 else if w2 ≠ 0x00#8 then 4 else if w3 ≠ 0x00#8 then 6 else 8) ∧
      rs.map (fun r => (r.tx0, r.tx2 ++ r.tx1)) =
        [(v.aApa, v.vApa), (0#8, 0#16), (v.aProf, v.vProf), (0#8, 0#16), (v.aPwr, 0x0001#16),
          (0#8, 0#16), (v.aStat, 0x0040#16), (0#8, 0#16)].take rs.length ∧
      rs.map (·.status) =
        List.replicate (rs.length - 1) .ok ++
          [if w1 = 0x00#8 ∧ w2 = 0x00#8 ∧ w3 = 0x00#8 ∧ w4 = 0x00#8 then .ok else .busError]
end

