-- ==== Sys2Proof/Laws/Crc.lean ====
section
/-! SUPPORT. Unfolding lemmas of the checksum, stated once. -/

namespace Sys2Proof.Laws

open Sys2Proof.Machine

@[simp] theorem checksumFrom_nil (acc : Byte) : checksumFrom acc [] = acc := rfl

@[simp] theorem checksumFrom_cons (acc b : Byte) (bs : List Byte) :
    checksumFrom acc (b :: bs) = checksumFrom (byteStep acc b) bs := rfl

/-- A checksum over two pieces goes on from the first piece's value. -/
theorem checksumFrom_append (acc : Byte) (bs cs : List Byte) :
    checksumFrom acc (bs ++ cs) = checksumFrom (checksumFrom acc bs) cs := by
  induction bs generalizing acc with
  | nil => rfl
  | cons b bs ih => simp [ih]

theorem checksum_append (bs cs : List Byte) : checksum (bs ++ cs) = checksumFrom (checksum bs) cs :=
  checksumFrom_append _ bs cs

end Sys2Proof.Laws
end

