-- ==== Sys2Proof/Laws/Decode.lean ====
section
/-! SUPPORT. What the decoder answers, one lemma per form. -/

namespace Sys2Proof.Laws

/-- The decoder refuses no command (30_encoding.md R62). -/
@[simp] theorem decode_command (c : Command) : decode (.command c) = .ok (decodeCommand c) := rfl

@[simp] theorem decode_wire (bytes : List Byte) : decode (.wire bytes) = decodeFrame bytes := rfl

theorem decode_write_frame (reg lo hi crc : Byte) :
    decodeFrame [0x16#8, reg, lo, hi, crc] = .ok (.wireWr reg lo hi crc) := rfl

theorem decode_request_frame (reg : Byte) : decodeFrame [0x16#8, reg] = .ok (.wireRdreq reg) := rfl

theorem decode_response_frame (lo hi crc : Byte) :
    decodeFrame [0x17#8, lo, hi, crc] = .ok (.wireRdresp lo hi crc) := rfl

end Sys2Proof.Laws
end

