-- ==== Sys2Proof/Laws/State.lean ====
section
/-! SUPPORT. One lemma per field and update of the state, so that no later proof unfolds a record update. -/

namespace Sys2Proof.Laws

open Sys2Proof.Machine

@[simp] theorem setAcc_acc (v : Byte) (s : State) : (setAcc v s).acc = v := rfl
@[simp] theorem setAcc_results (v : Byte) (s : State) : (setAcc v s).results = s.results := rfl
@[simp] theorem setAcc_bus (v : Byte) (s : State) : (setAcc v s).bus = s.bus := rfl
@[simp] theorem setAcc_pending (v : Byte) (s : State) : (setAcc v s).pending = s.pending := rfl

@[simp] theorem answer_acc (r : Result) (s : State) : (answer r s).acc = s.acc := rfl
@[simp] theorem answer_results (r : Result) (s : State) :
    (answer r s).results = s.results ++ [{ r with crc := s.acc }] := rfl
@[simp] theorem answer_bus (r : Result) (s : State) : (answer r s).bus = s.bus := rfl
@[simp] theorem answer_pending (r : Result) (s : State) : (answer r s).pending = s.pending := rfl

@[simp] theorem resetBlock_acc (s : State) : (resetBlock s).acc = 0x00#8 := rfl
@[simp] theorem resetBlock_results (s : State) : (resetBlock s).results = s.results := rfl
@[simp] theorem resetBlock_bus (s : State) : (resetBlock s).bus = s.bus := rfl
@[simp] theorem resetBlock_pending (s : State) : (resetBlock s).pending = s.pending := rfl

@[simp] theorem reset_acc : State.reset.acc = 0x00#8 := rfl
@[simp] theorem reset_results : State.reset.results = [] := rfl
@[simp] theorem reset_bus : State.reset.bus = [] := rfl
@[simp] theorem reset_pending : State.reset.pending = [] := rfl

end Sys2Proof.Laws
end

