-- ==== Sys2Proof/Laws/Ops.lean ====
section
/-! SUPPORT. One lemma per shared operation that says everything it can do. Provers cite these instead of
unfolding the operation. -/

namespace Sys2Proof.Laws

open Sys2Proof.Machine

/-- A completed command: `ACC`, the bus and the host's list stay, and one OK record is added. -/
theorem complete_eq (r : Result) (s : State) :
    complete r s =
      .next { s with results := s.results ++ [{ r with status := .ok, crc := s.acc }] } := rfl

/-- An error: `ACC`, the bus and the host's list stay, and a record of nothing but status and `CRC` is added. -/
theorem raiseError_eq (st : Status) (s : State) :
    raiseError st s =
      .next { s with results := s.results ++ [{ blankResult with status := st, crc := s.acc }] } := rfl

theorem complete_next (r : Result) (s t : State) (h : complete r s = .next t) :
    t.acc = s.acc ∧ t.bus = s.bus ∧ t.pending = s.pending ∧
      t.results = s.results ++ [{ r with status := .ok, crc := s.acc }] := by
  rw [complete_eq] at h
  cases h
  exact ⟨rfl, rfl, rfl, rfl⟩

theorem raiseError_next (st : Status) (s t : State) (h : raiseError st s = .next t) :
    t.acc = s.acc ∧ t.bus = s.bus ∧ t.pending = s.pending ∧
      t.results = s.results ++ [{ blankResult with status := st, crc := s.acc }] := by
  rw [raiseError_eq] at h
  cases h
  exact ⟨rfl, rfl, rfl, rfl⟩

theorem passOnBus_next (m : Transfer) (s t : State) (h : passOnBus m s = .next t) :
    t.acc = s.acc ∧ t.results = s.results ∧ t.pending = s.pending ∧ t.bus = s.bus ++ [m] := by
  cases h
  exact ⟨rfl, rfl, rfl, rfl⟩

/-- Everything a step can do: nothing, the block's reset, dropping bytes that are no frame, or performing
the decoded instruction. -/
theorem step_cases (s : State) :
    (s.pending = [] ∧ step s = .next s) ∨
    (∃ rest, s.pending = .reset :: rest ∧ step s = .next (resetBlock { s with pending := rest })) ∨
    (∃ e rest err, s.pending = .present e :: rest ∧ decode e = .error err ∧
      step s = .next { s with pending := rest }) ∨
    (∃ e rest i, s.pending = .present e :: rest ∧ decode e = .ok i ∧
      step s = exec i { s with pending := rest }) := by
  unfold step fetch
  match hp : s.pending with
  | [] => exact .inl ⟨rfl, rfl⟩
  | .reset :: rest => exact .inr (.inl ⟨rest, rfl, rfl⟩)
  | .present e :: rest =>
    match hd : decode e with
    | .ok i => exact .inr (.inr (.inr ⟨e, rest, i, rfl, hd, by simp [hd]⟩))
    | .error err => exact .inr (.inr (.inl ⟨e, rest, err, rfl, hd, by simp [hd]⟩))

/-- A next state is gone on from. -/
@[simp] theorem andThen_next (s : State) (f : State → Host.Outcome State Fault Refusal) :
    andThen (.next s) f = f s := rfl

/-- The host reads the record a command has just added. -/
@[simp] theorem lastResult_append (s : State) (rs : List Result) (r : Result) :
    lastResult { s with results := rs ++ [r] } = some r := by
  simp [lastResult]

end Sys2Proof.Laws
end

