-- ==== Sys2Proof/Laws/PerInstr.lean ====
section
/-! SUPPORT. A family of statements about every instruction as syntax, with one lemma per constructor. -/

namespace Sys2Proof.Laws.EncodeCanonical

/-- The encoder leaves every port that the instruction's opcode does not read at zero (10_state.md R26). -/
def Statement (i : Instr) : Prop :=
  canonical (encode i) = encode i

theorem crcClr : Statement .crcClr := rfl
theorem crcByte (byte : Byte) : Statement (.crcByte byte) := rfl
theorem encRdreq (reg : Byte) : Statement (.encRdreq reg) := rfl
theorem decRd (reg wstat : Byte) (rxlen : BitVec 2) (resp0 resp1 resp2 : Byte) :
    Statement (.decRd reg wstat rxlen resp0 resp1 resp2) := rfl
theorem encWr (reg : Byte) (wdata : Half) : Statement (.encWr reg wdata) := rfl
theorem wrDone (wstat : Byte) : Statement (.wrDone wstat) := rfl
theorem join32 (lo16 hi16 : Half) : Statement (.join32 lo16 hi16) := rfl
theorem split32 (x32 : Pair) : Statement (.split32 x32) := rfl
theorem reserved0 : Statement .reserved0 := rfl
theorem reserved9 : Statement .reserved9 := rfl
theorem reservedA : Statement .reservedA := rfl
theorem reservedB : Statement .reservedB := rfl
theorem reservedC : Statement .reservedC := rfl
theorem reservedD : Statement .reservedD := rfl
theorem reservedE : Statement .reservedE := rfl
theorem reservedF : Statement .reservedF := rfl
theorem wireWr (reg lo hi crc : Byte) : Statement (.wireWr reg lo hi crc) := rfl
theorem wireRdreq (reg : Byte) : Statement (.wireRdreq reg) := rfl
theorem wireRdresp (lo hi crc : Byte) : Statement (.wireRdresp lo hi crc) := rfl

end Sys2Proof.Laws.EncodeCanonical
end

