-- ==== Sys2Proof/Tests/Slice0.lean ====
section
/-! SUPPORT. Small tests of one step or one operation each. Expected values come from the spec's own
vectors (95_test_vectors.md, named in each comment) or are counted by hand from the rule named. After
them, one witness for each hypothesis of a statement. -/

namespace Sys2Proof.Tests

open Sys2Proof Sys2Proof.Machine

/-- A state with nothing in it but an accumulator. -/
def withAcc (acc : Byte) : State := { State.reset with acc := acc }

/-- What a test looks at after an instruction: `ACC` and the last record. -/
def outcome (o : Host.Outcome State Fault Refusal) : Option (Byte × Option Result) :=
  match o with
  | .next s => some (s.acc, lastResult s)
  | .fault _ => none
  | .refused _ => none

/-- `ACC`, the status and `CRC` after an instruction. -/
def statusAfter (o : Host.Outcome State Fault Refusal) : Option (Byte × Option (Status × Byte)) :=
  (outcome o).map fun p => (p.1, p.2.map fun r => (r.status, r.crc))

/-! ### Well-formedness, the smoke test -/

-- 95_test_vectors.md V21: the checksum of the write frame for register 0x04, value 0x0000 is 0xB8.
theorem test_write_frame_well_formed :
    (Instr.wireWr 0x04#8 0x00#8 0x00#8 0xB8#8).wellFormed = true := by decide +kernel

-- The same frame with another last byte is refused (30_encoding.md R68).
theorem test_write_frame_ill_formed :
    (Instr.wireWr 0x04#8 0x00#8 0x00#8 0xB7#8).wellFormed = false := by decide +kernel

/-! ### The checksum engine -/

-- 95_test_vectors.md V2.
theorem test_round :
    [0x00#8, 0x01#8, 0x07#8, 0x40#8, 0x7F#8, 0x80#8, 0x81#8, 0xC0#8, 0xFF#8].map crcRound =
      [0x00#8, 0x02#8, 0x0E#8, 0x80#8, 0xFE#8, 0x07#8, 0x05#8, 0x87#8, 0xF9#8] := by decide +kernel

-- 95_test_vectors.md V3, first and fourth row.
theorem test_byte_step : byteStep 0x00#8 0x16#8 = 0x62#8 ∧ byteStep 0x00#8 0x80#8 = 0x89#8 := by decide +kernel

-- 95_test_vectors.md V1, V4, V8b.
theorem test_checksum :
    checksum [0x16#8, 0x04#8, 0x00#8, 0x00#8] = 0xB8#8 ∧ checksum [] = 0x00#8 ∧
      checksum [0x16#8, 0x04#8, 0x17#8] = 0xEE#8 := by decide +kernel

-- 95_test_vectors.md V9: ASCII 123456789.
theorem test_checksum_check_value :
    checksum [0x31#8, 0x32#8, 0x33#8, 0x34#8, 0x35#8, 0x36#8, 0x37#8, 0x38#8, 0x39#8] = 0xF4#8 := by
  decide +kernel

-- 40_crc_engine.md R106: the bit-serial engine on V3's second row.
theorem test_bit_serial : bitSerialByte 0x62#8 0x04#8 = 0x35#8 := by decide +kernel

/-! ### The commands, on the spec's vectors -/

-- 95_test_vectors.md V4a.
theorem test_crc_clr :
    statusAfter (exec .crcClr (withAcc 0x5A#8)) = some (0x00#8, some (.ok, 0x00#8)) := by decide +kernel

-- 95_test_vectors.md V4d.
theorem test_crc_byte :
    statusAfter (exec (.crcByte 0x04#8) (withAcc 0x62#8)) = some (0x35#8, some (.ok, 0x35#8)) := by decide +kernel

-- 95_test_vectors.md V4g.
theorem test_crc_byte_cancels :
    statusAfter (exec (.crcByte 0x9C#8) (withAcc 0x9C#8)) = some (0x00#8, some (.ok, 0x00#8)) := by decide +kernel

-- 95_test_vectors.md V10c: dev7, tx0, txlen, txhold, rxreq, rxhold, crc.
theorem test_enc_rdreq :
    ((outcome (exec (.encRdreq 0xFF#8) (withAcc 0xA5#8))).map fun p =>
      (p.1, p.2.map fun r => (r.dev7, r.tx0, r.txlen, r.txhold, r.rxreq, r.rxhold, r.crc))) =
      some (0xA5#8, some (0x0B#7, 0xFF#8, 1#3, 1#1, 3#2, 0#1, 0xA5#8)) := by decide +kernel

-- 95_test_vectors.md V11 and V14: status, rdata and the accumulator.
theorem test_dec_rd :
    ((outcome (exec (.decRd 0x04#8 0x00#8 3#2 0x34#8 0x12#8 0x46#8) (withAcc 0xA5#8))).map fun p =>
        (p.1, p.2.map fun r => (r.status, r.rdata))) = some (0x46#8, some (.ok, 0x1234#16)) ∧
      ((outcome (exec (.decRd 0x04#8 0x00#8 3#2 0x35#8 0x12#8 0x46#8) (withAcc 0xA5#8))).map fun p =>
        (p.1, p.2.map fun r => (r.status, r.rdata))) = some (0x53#8, some (.checksumError, 0x0000#16)) := by
  decide +kernel

-- 95_test_vectors.md V17 and V19: a short read, and a failed write whose bytes would check.
theorem test_dec_rd_bus_error :
    statusAfter (exec (.decRd 0x04#8 0x00#8 2#2 0x34#8 0x12#8 0x00#8) (withAcc 0xA5#8)) =
        some (0xA5#8, some (.busError, 0xA5#8)) ∧
      statusAfter (exec (.decRd 0x04#8 0x02#8 3#2 0x34#8 0x12#8 0x46#8) (withAcc 0xA5#8)) =
        some (0xA5#8, some (.busError, 0xA5#8)) := by decide +kernel

-- 95_test_vectors.md V25: tx0 to tx3, txlen, txhold and the accumulator.
theorem test_enc_wr :
    ((outcome (exec (.encWr 0x0D#8 0x0E10#16) (withAcc 0xA5#8))).map fun p =>
      (p.1, p.2.map fun r => (r.dev7, r.tx0, r.tx1, r.tx2, r.tx3, r.txlen, r.txhold))) =
      some (0xFF#8, some (0x0B#7, 0x0D#8, 0x10#8, 0x0E#8, 0xFF#8, 4#3, 0#1)) := by decide +kernel

-- 95_test_vectors.md V20: the checksum byte may be zero.
theorem test_enc_wr_zero_checksum :
    statusAfter (exec (.encWr 0x0E#8 0x0003#16) (withAcc 0xA5#8)) = some (0x00#8, some (.ok, 0x00#8)) := by
  decide +kernel

-- 95_test_vectors.md V26 and V28.
theorem test_wr_done :
    statusAfter (exec (.wrDone 0x00#8) (withAcc 0x3C#8)) = some (0x3C#8, some (.ok, 0x3C#8)) ∧
      statusAfter (exec (.wrDone 0xFF#8) (withAcc 0x3C#8)) = some (0x3C#8, some (.busError, 0x3C#8)) := by
  decide +kernel

-- 95_test_vectors.md V30 and V31.
theorem test_join32 :
    ((outcome (exec (.join32 0x5678#16 0x1234#16) (withAcc 0x3C#8))).map fun p => p.2.map (·.y32)) =
        some (some 0x12345678#32) ∧
      ((outcome (exec (.join32 0xFFFF#16 0xFFFF#16) (withAcc 0x3C#8))).map fun p => p.2.map (·.y32)) =
        some (some 0xFFFFFFFF#32) := by decide +kernel

-- 95_test_vectors.md V33 and V34, third case.
theorem test_split32 :
    ((outcome (exec (.split32 0x12345678#32) (withAcc 0x3C#8))).map fun p =>
        p.2.map fun r => (r.olo16, r.ohi16)) = some (some (0x5678#16, 0x1234#16)) ∧
      ((outcome (exec (.split32 0x00010000#32) (withAcc 0x3C#8))).map fun p =>
        p.2.map fun r => (r.olo16, r.ohi16)) = some (some (0x0000#16, 0x0001#16)) := by decide +kernel

-- 95_test_vectors.md V35 to V37: the whole record.
theorem test_reserved :
    outcome (exec .reserved0 (withAcc 0x3C#8)) =
        some (0x3C#8, some { blankResult with status := .illegalCommand, crc := 0x3C#8 }) ∧
      outcome (exec .reserved9 (withAcc 0x3C#8)) =
        some (0x3C#8, some { blankResult with status := .illegalCommand, crc := 0x3C#8 }) ∧
      outcome (exec .reservedF (withAcc 0x3C#8)) =
        some (0x3C#8, some { blankResult with status := .illegalCommand, crc := 0x3C#8 }) := by decide +kernel

-- 60_exceptions.md R203, the opcodes between.
theorem test_reserved_between :
    [Instr.reservedA, .reservedB, .reservedC, .reservedD, .reservedE].map
        (fun i => statusAfter (exec i (withAcc 0x3C#8))) =
      List.replicate 5 (some (0x3C#8, some (.illegalCommand, 0x3C#8))) := by decide +kernel

-- 95_test_vectors.md P2 and P3, the wire columns: what each frame puts on the bus.
theorem test_wire_frames :
    exec (.wireWr 0x04#8 0x34#8 0x12#8 0x6B#8) State.reset =
        .next { State.reset with bus := [⟨0x16#8, [0x04#8, 0x34#8, 0x12#8, 0x6B#8], true⟩] } ∧
      exec (.wireRdreq 0x04#8) State.reset =
        .next { State.reset with bus := [⟨0x16#8, [0x04#8], false⟩] } ∧
      exec (.wireRdresp 0x34#8 0x12#8 0x46#8) State.reset =
        .next { State.reset with bus := [⟨0x17#8, [0x34#8, 0x12#8, 0x46#8], true⟩] } :=
  ⟨rfl, rfl, rfl⟩

-- 60_exceptions.md R200: the codes.
theorem test_status_codes :
    [Status.ok, .busError, .checksumError, .illegalCommand].map statusCode = [0#2, 1#2, 2#2, 3#2] := by
  decide +kernel

/-! ### Decoding, on words written out from the encodings -/

-- 30_encoding.md R60: OP = 0b0001 to 0b1000, operand ports at zero.
theorem test_decode_commands :
    [0b0001, 0b0010, 0b0011, 0b0100, 0b0101, 0b0110, 0b0111, 0b1000].map (decodeTableWord 8) =
      [some .crcClr, some (.crcByte 0#8), some (.encRdreq 0#8), some (.decRd 0#8 0#8 0#2 0#8 0#8 0#8),
        some (.encWr 0#8 0#16), some (.wrDone 0#8), some (.join32 0#16 0#16), some (.split32 0#32)] := by
  decide +kernel

-- 30_encoding.md R62: OP = 0b0000 and 0b1001 to 0b1111.
theorem test_decode_reserved :
    [0b0000, 0b1001, 0b1010, 0b1011, 0b1100, 0b1101, 0b1110, 0b1111].map (decodeTableWord 8) =
      [some .reserved0, some .reserved9, some .reservedA, some .reservedB, some .reservedC,
        some .reservedD, some .reservedE, some .reservedF] := by decide +kernel

-- 30_encoding.md R68, bit by bit: address and direction, then the bytes of program P3's frames.
theorem test_decode_frames :
    decodeTableWord 40 0b0001011000000100001101000001001001101011 =
        some (.wireWr 0x04#8 0x34#8 0x12#8 0x6B#8) ∧
      decodeTableWord 16 0b0001011000000100 = some (.wireRdreq 0x04#8) ∧
      decodeTableWord 32 0b00010111001101000001001001000110 =
        some (.wireRdresp 0x34#8 0x12#8 0x46#8) := by decide +kernel

-- 10_state.md R26: each command takes its operands from its own ports.
theorem test_decode_ports :
    decode (.command { bareCommand 0x4#4 with
        byte := 0x99#8, reg := 0x01#8, wstat := 0x02#8, rxlen := 3#2, resp0 := 0x05#8, resp1 := 0x06#8,
        resp2 := 0x07#8, x32 := 0x88888888#32 }) =
      .ok (.decRd 0x01#8 0x02#8 3#2 0x05#8 0x06#8 0x07#8) := rfl

-- 30_encoding.md R67, R70: a wrong direction bit, another device's address, and a length of no frame.
theorem test_decode_refuses :
    decodeFrame [0x17#8, 0x04#8] = .error .wrongAddressByte ∧
      decodeFrame [0x18#8, 0x04#8, 0x34#8, 0x12#8, 0x6B#8] = .error .wrongAddressByte ∧
      decodeFrame [0x17#8, 0x34#8, 0x12#8] = .error .wrongFrameLength ∧
      decodeTableWord 16 0x1704 = none := ⟨rfl, rfl, rfl, rfl⟩

-- A table word is the very next instruction a step performs (95_test_vectors.md V4b).
theorem test_step_runs_table_word :
    statusAfter (step (State.reset.withFetchWord 8 0b0001)) = some (0x00#8, some (.ok, 0x00#8)) := by decide +kernel

-- 70_reset_and_hazards.md R240: a reset between two commands.
theorem test_step_reset :
    statusAfter (step { withAcc 0x5A#8 with pending := [.reset] }) = some (0x00#8, none) := by decide +kernel

-- 95_test_vectors.md P4: the pair at 0x08 and 0x09.
theorem test_read32 :
    ((outcome (pseudoRead32 0x08#8 ⟨0x00#8, 3#2, 0x78#8, 0x56#8, 0xD2#8⟩ ⟨0x00#8, 3#2, 0x34#8, 0x12#8, 0xB8#8⟩
      State.reset)).map fun p => (p.1, p.2.map fun r => (r.status, r.y32))) =
      some (0xB8#8, some (.ok, 0x12345678#32)) := by decide +kernel

-- 95_test_vectors.md P5, variant P5-fail: two commands of each of two writes, then a stop.
theorem test_init_stops :
    (match pseudoInit ⟨0x10#8, 0x11#8, 0x15#8, 0x13#8, 0x0001#16, 0x0002#16⟩ 0x00#8 0x02#8 0x00#8 0x00#8
        State.reset with
      | .next s => (s.results.length, (lastResult s).map (·.status))
      | _ => (0, none)) = (4, some .busError) := by decide +kernel

/-! ### Witnesses: states and operands that meet the hypotheses of each statement -/

/-- A record of an earlier command, a transfer of an earlier frame, and two actions to come. -/
def busyState (acc : Byte) (next : HostAction) : State :=
  { acc := acc
    results := [{ blankResult with
      status := .ok, crc := 0xB8#8, dev7 := 0x0B#7, tx0 := 0x04#8, tx3 := 0xB8#8, txlen := 4#3 }]
    bus := [⟨0x16#8, [0x04#8, 0x00#8, 0x00#8, 0xB8#8], true⟩]
    pending := [next, .reset] }

theorem witness_ReservedOpcodesAreIllegal :
    Instr.reserved0 ∈ [Instr.reserved0, .reserved9, .reservedA, .reservedB, .reservedC, .reservedD,
      .reservedE, .reservedF] := by decide +kernel

-- One command for each of the sixteen clauses.
theorem witness_OpcodeMapDecodes :
    (List.range 16).map (fun n => (bareCommand (BitVec.ofNat 4 n)).op) =
      [0x0#4, 0x1#4, 0x2#4, 0x3#4, 0x4#4, 0x5#4, 0x6#4, 0x7#4, 0x8#4, 0x9#4, 0xA#4, 0xB#4, 0xC#4, 0xD#4,
        0xE#4, 0xF#4] := by decide +kernel

theorem witness_ChecksumIsLinearAndDetectsOneByte :
    [0x16#8, 0x04#8].length = [0x80#8, 0xFF#8].length ∧ (0x00#8 : Byte) ≠ 0xFF#8 := by decide +kernel

-- 95_test_vectors.md V14, V15, V16, V19a: a changed byte in each of the four places.
theorem witness_CorruptedResponseIsDetected :
    (0x35#8 : Byte) ≠ 0x34#8 ∧ (0x92#8 : Byte) ≠ 0x12#8 ∧ (0x05#8 : Byte) ≠ 0x04#8 ∧
      (0x47#8 : Byte) ≠ checksum [0x16#8, 0x04#8, 0x17#8, 0x34#8, 0x12#8] := by decide +kernel

theorem witness_CommandHypotheses :
    (Instr.split32 0xFFFFFFFF#32).isCommand = true ∧ Instr.reserved0.isCommand = true ∧
      (Instr.decRd 0xFF#8 0x01#8 2#2 0x00#8 0x00#8 0x00#8).isCommand = true := by decide +kernel

-- UnwrittenFieldsReadZero: a failing command, and one that is none of the writers of each field.
theorem witness_UnwrittenFieldsReadZero :
    ((outcome (exec (.wrDone 0x01#8) State.reset)).map fun p =>
        p.2.map fun r => decide (r.status ≠ .ok)) = some (some true) ∧
      (∀ reg, Instr.crcClr ≠ .encRdreq reg) ∧ (∀ reg v, Instr.crcClr ≠ .encWr reg v) ∧
      (∀ reg wstat rxlen r0 r1 r2, Instr.crcClr ≠ .decRd reg wstat rxlen r0 r1 r2) ∧
      (∀ lo hi, Instr.crcClr ≠ .join32 lo hi) ∧ (∀ x, Instr.crcClr ≠ .split32 x) := by
  refine ⟨by decide +kernel, ?_, ?_, ?_, ?_, ?_⟩ <;> intros <;> nofun

-- FailedReadReturnsNoData: a failing outcome with three bytes, and a length at each value below three.
theorem witness_FailedReadReturnsNoData :
    ((outcome (exec (.decRd 0x04#8 0x00#8 3#2 0x00#8 0x00#8 0x00#8) State.reset)).map fun p =>
        p.2.map fun r => decide (r.status ≠ .ok)) = some (some true) ∧
      (0#2 : BitVec 2).toNat < 3 ∧ (2#2 : BitVec 2).toNat < 3 := by decide +kernel

theorem witness_AccumulatorKeptByOtherInstructions :
    (Instr.decRd 0x04#8 0x01#8 3#2 0x00#8 0x00#8 0x00#8).keepsAcc = true ∧
      (Instr.decRd 0x04#8 0x00#8 2#2 0x00#8 0x00#8 0x00#8).keepsAcc = true ∧
      Instr.reservedF.keepsAcc = true ∧ (Instr.wireRdreq 0x04#8).keepsAcc = true := by decide +kernel

-- Two states that differ in all but the accumulator.
theorem witness_CommandsSeeOnlyTheAccumulator :
    (Instr.crcByte 0x04#8).isCommand = true ∧
      (withAcc 0x62#8).acc = (busyState 0x62#8 .reset).acc ∧
      (withAcc 0x62#8).results ≠ (busyState 0x62#8 .reset).results := by decide +kernel

-- A pending command for each of the four codes, reserved at both edges of its range.
theorem witness_StatusOfEveryCommandByPriority :
    (busyState 0x3C#8 (.present (.command (bareCommand 0x0#4)))).pending =
        .present (.command (bareCommand 0x0#4)) :: [.reset] ∧
      ((bareCommand 0x0#4).op = 0x0#4 ∧ 9 ≤ (bareCommand 0x9#4).op.toNat ∧
        ¬ 9 ≤ (bareCommand 0x8#4).op.toNat) ∧
      ((bareCommand 0x4#4).op = 0x4#4 ∧ (bareCommand 0x4#4).rxlen ≠ 3#2) ∧
      ((outcome (step (busyState 0x3C#8 (.present (.command
          { bareCommand 0x4#4 with reg := 0x04#8, rxlen := 3#2 }))))).map fun p =>
        p.2.map fun r => statusCode r.status) = some (some 2#2) ∧
      ((outcome (step (busyState 0x3C#8 (.present (.command
          { bareCommand 0x6#4 with wstat := 0xFF#8 }))))).map fun p =>
        p.2.map fun r => statusCode r.status) = some (some 1#2) ∧
      ((outcome (step (busyState 0x3C#8 (.present (.command (bareCommand 0x9#4)))))).map fun p =>
        p.2.map fun r => statusCode r.status) = some (some 3#2) := by decide +kernel

theorem witness_EveryOpcodeIsACommandOrIllegal :
    (busyState 0x3C#8 (.present (.command (bareCommand 0xF#4)))).pending =
        .present (.command (bareCommand 0xF#4)) :: [.reset] ∧
      ((outcome (step (busyState 0x3C#8 (.present (.command (bareCommand 0xF#4)))))).map fun p =>
        p.2.map fun r => r.status) = some (some .illegalCommand) := by decide +kernel

theorem witness_StepRunsTheNextInstruction :
    (busyState 0x62#8 (.present (.wire [0x16#8, 0x04#8]))).pending =
        .present (.wire [0x16#8, 0x04#8]) :: [.reset] ∧
      decode (.wire [0x16#8, 0x04#8]) = .ok (.wireRdreq 0x04#8) := ⟨rfl, rfl⟩

theorem witness_StepRunsATableWord : decodeTableWord 8 0x0F = some .reservedF := by decide +kernel

theorem witness_StepWithoutAnInstruction :
    (withAcc 0x62#8).pending = [] ∧
      (busyState 0x62#8 (.present (.wire [0x17#8, 0x34#8, 0x12#8]))).pending =
        .present (.wire [0x17#8, 0x34#8, 0x12#8]) :: [.reset] ∧
      decodeFrame [0x17#8, 0x34#8, 0x12#8] = .error .wrongFrameLength ∧
      decodeFrame [0x17#8, 0x04#8] = .error .wrongAddressByte := ⟨rfl, rfl, rfl, rfl⟩

-- ResetClearsTheAccumulator and ResetTouchesOnlyTheAccumulator.
theorem witness_ResetHypotheses : (busyState 0x62#8 .reset).pending = .reset :: [.reset] := by decide +kernel

-- A legal state with a write request answered and a write on the bus, and a step from it.
theorem witness_StepKeepsTheInvariant :
    LegalState (busyState 0x62#8 .reset) ∧
      step (busyState 0x62#8 .reset) = .next { busyState 0x00#8 .reset with pending := [.reset] } :=
  ⟨⟨by decide +kernel, by decide +kernel⟩, rfl⟩

theorem witness_StreamSurvivesSafeInterleaving :
    ∀ i ∈ [Instr.crcByte 0x16#8, .encRdreq 0x04#8, .crcByte 0x04#8, .wireRdreq 0x04#8],
      i.keepsAcc = true ∨ ∃ b : Byte, i = .crcByte b := by
  simp [Instr.keepsAcc]

-- RunAnswersEveryCommandInOrder: the first and the last of two commands, with their own records.
theorem witness_RunAnswersEveryCommandInOrder :
    [bareCommand 0x0#4, { bareCommand 0x5#4 with reg := 0x04#8 }][1]? =
        some { bareCommand 0x5#4 with reg := 0x04#8 } ∧
      (match Sys2Proof.core.run 2 { State.reset with
          pending := [.present (.command (bareCommand 0x0#4)),
            .present (.command { bareCommand 0x5#4 with reg := 0x04#8 })] } with
        | .next s => s.results.map fun r => (r.status, r.tx3)
        | _ => []) = [(.illegalCommand, 0x00#8), (.ok, 0xB8#8)] := by decide +kernel

theorem witness_WholeTransactionsKeepTheBusExclusive :
    exclusiveBus (busyState 0x62#8 .reset).bus = true ∧
      exclusiveBus [⟨0x16#8, [0x04#8], false⟩, ⟨0x17#8, [0x34#8, 0x12#8, 0x46#8], true⟩] = true := by decide +kernel

-- ReadAndWriteAreTwoCommandsEach: a read that ends with OK (95_test_vectors.md P2).
theorem witness_ReadAndWriteAreTwoCommandsEach :
    ((outcome (pseudoRead 0x04#8 ⟨0x00#8, 3#2, 0x34#8, 0x12#8, 0x46#8⟩ State.reset)).map fun p =>
      p.2.map fun r => (r.status, r.rdata)) = some (some (.ok, 0x1234#16)) := by decide +kernel

-- Read32JoinsThePairOrStops, by the last record and the number of records: both reads check (95_test_vectors.md
-- P4), the second is short (P4-short), the first is corrupted, and addr = 0xFF wraps to 0x00.
theorem witness_Read32JoinsThePairOrStops :
    [pseudoRead32 0x08#8 ⟨0x00#8, 3#2, 0x78#8, 0x56#8, 0xD2#8⟩ ⟨0x00#8, 3#2, 0x34#8, 0x12#8, 0xB8#8⟩
        State.reset,
      pseudoRead32 0x08#8 ⟨0x00#8, 3#2, 0x78#8, 0x56#8, 0xD2#8⟩ ⟨0x00#8, 2#2, 0x34#8, 0x12#8, 0x00#8⟩
        State.reset,
      pseudoRead32 0x08#8 ⟨0x00#8, 3#2, 0x79#8, 0x56#8, 0xD2#8⟩ ⟨0x00#8, 3#2, 0x34#8, 0x12#8, 0xB8#8⟩
        State.reset].map (fun o => match o with
          | .next s => (s.results.length, (lastResult s).map (·.status))
          | _ => (0, none)) =
      [(5, some .ok), (4, some .busError), (2, some .checksumError)] ∧
      (0xFF#8 + 1#8 : Byte) = 0x00#8 := by decide +kernel

-- Write32WritesThePairOrStops and InitWritesFourRegistersOrStops: a bus status that is zero, and one that is not.
theorem witness_BusStatusHypotheses : (0x00#8 : Byte) = 0x00#8 ∧ (0x02#8 : Byte) ≠ 0x00#8 := by decide +kernel

end Sys2Proof.Tests
end

/-! SUPPORT. What a command answers, said once: its status, the fields its rule writes and the accumulator
it leaves are functions of its operands and `ACC` alone, and `exec_command` ties them to `exec`. A wire
frame is no command: it answers no record, and its entries only make the functions total. -/

namespace Sys2Proof.Proofs

open Sys2Proof.Machine Sys2Proof.Laws

/-- The status a command ends with, by the priority of 60_exceptions.md R204. -/
def statusOf : Instr → Status
  | .decRd reg wstat rxlen resp0 resp1 resp2 =>
    if readFailed wstat rxlen then .busError
    else if checksum (readFrame Config.block reg resp0 resp1) ≠ resp2 then .checksumError
    else .ok
  | .wrDone wstat => if writeFailed wstat then .busError else .ok
  | .reserved0 | .reserved9 | .reservedA | .reservedB | .reservedC | .reservedD | .reservedE
  | .reservedF => .illegalCommand
  | .crcClr | .crcByte _ | .encRdreq _ | .encWr _ _ | .join32 _ _ | .split32 _
  | .wireWr _ _ _ _ | .wireRdreq _ | .wireRdresp _ _ _ => .ok

/-- The fields a command's rule writes when it ends with OK (10_state.md R27), the others at zero. -/
def writtenBy : Instr → Result
  | .encRdreq reg =>
    { blankResult with dev7 := Config.block.devAddr7, tx0 := reg, txlen := 1#3, txhold := 1#1, rxreq := 3#2 }
  | .decRd _ _ _ resp0 resp1 _ => { blankResult with rdata := word16 resp0 resp1 }
  | .encWr reg wdata =>
    { blankResult with
      dev7 := Config.block.devAddr7, tx0 := reg, tx1 := lowByte wdata, tx2 := highByte wdata,
      tx3 := checksum (writeFrame Config.block reg wdata), txlen := 4#3 }
  | .join32 lo16 hi16 => { blankResult with y32 := joinWords lo16 hi16 }
  | .split32 x32 => { blankResult with olo16 := lowerWord x32, ohi16 := upperWord x32 }
  | .crcClr | .crcByte _ | .wrDone _
  | .reserved0 | .reserved9 | .reservedA | .reservedB | .reservedC | .reservedD | .reservedE
  | .reservedF | .wireWr _ _ _ _ | .wireRdreq _ | .wireRdresp _ _ _ => blankResult

/-- The accumulator an instruction leaves, from the one it starts with (10_state.md section 4). -/
def accAfter : Instr → Byte → Byte
  | .crcClr, _ => Config.crcInit
  | .crcByte byte, acc => byteStep acc byte
  | .decRd reg wstat rxlen resp0 resp1 _, acc =>
    if readFailed wstat rxlen then acc else checksum (readFrame Config.block reg resp0 resp1)
  | .encWr reg wdata, _ => checksum (writeFrame Config.block reg wdata)
  | .encRdreq _, acc | .wrDone _, acc | .join32 _ _, acc | .split32 _, acc
  | .reserved0, acc | .reserved9, acc | .reservedA, acc | .reservedB, acc
  | .reservedC, acc | .reservedD, acc | .reservedE, acc | .reservedF, acc
  | .wireWr _ _ _ _, acc | .wireRdreq _, acc | .wireRdresp _ _ _, acc => acc

/-- What a command's record holds beside `STATUS` and `CRC`: nothing when it fails (10_state.md R28). -/
def fieldsOf (i : Instr) : Result :=
  if statusOf i = .ok then writtenBy i else blankResult

/-- The whole record of a command performed on an accumulator. -/
def recordOf (i : Instr) (acc : Byte) : Result :=
  { fieldsOf i with status := statusOf i, crc := accAfter i acc }

@[simp] theorem recordOf_status (i : Instr) (acc : Byte) : (recordOf i acc).status = statusOf i := rfl
@[simp] theorem recordOf_crc (i : Instr) (acc : Byte) : (recordOf i acc).crc = accAfter i acc := rfl

/-- The state a command leaves: it sets `ACC` and adds its one record. -/
def afterCommand (i : Instr) (s : State) : State :=
  { s with acc := accAfter i s.acc, results := s.results ++ [recordOf i s.acc] }

@[simp] theorem afterCommand_acc (i : Instr) (s : State) : (afterCommand i s).acc = accAfter i s.acc := rfl
@[simp] theorem afterCommand_results (i : Instr) (s : State) :
    (afterCommand i s).results = s.results ++ [recordOf i s.acc] := rfl
@[simp] theorem afterCommand_bus (i : Instr) (s : State) : (afterCommand i s).bus = s.bus := rfl
@[simp] theorem afterCommand_pending (i : Instr) (s : State) : (afterCommand i s).pending = s.pending := rfl

/-- DEC_RD's three endings (41_read_transaction.md R123). -/
theorem exec_decRd (reg wstat : Byte) (rxlen : BitVec 2) (resp0 resp1 resp2 : Byte) (s : State) :
    exec (.decRd reg wstat rxlen resp0 resp1 resp2) s =
      .next (afterCommand (.decRd reg wstat rxlen resp0 resp1 resp2) s) := by
  simp only [exec, execDecRd, decodeReadResponse, afterCommand, recordOf, fieldsOf, statusOf, accAfter]
  by_cases hbus : readFailed wstat rxlen
  · simp [hbus, raiseError_eq]
  · by_cases hcrc : checksum (readFrame Config.block reg resp0 resp1) = resp2
    · simp [hbus, hcrc, complete_eq, writtenBy, setAcc, blankResult]
    · simp [hbus, hcrc, raiseError_eq, setAcc]

/-- WR_DONE's two endings (42_write_transaction.md R143). -/
theorem exec_wrDone (wstat : Byte) (s : State) :
    exec (.wrDone wstat) s = .next (afterCommand (.wrDone wstat) s) := by
  simp only [exec, execWrDone, afterCommand, recordOf, fieldsOf, statusOf, accAfter]
  by_cases hbus : writeFailed wstat
  · simp [hbus, raiseError_eq]
  · simp [hbus, complete_eq, writtenBy]

/-- Everything a command does, for all sixteen and in every state. -/
theorem exec_command {i : Instr} (hi : i.isCommand = true) (s : State) :
    exec i s = .next (afterCommand i s) := by
  cases i with
  | decRd reg wstat rxlen resp0 resp1 resp2 => exact exec_decRd reg wstat rxlen resp0 resp1 resp2 s
  | wrDone wstat => exact exec_wrDone wstat s
  | wireWr | wireRdreq | wireRdresp => cases hi
  | _ => rfl

/-- A host reset is the block's reset, taken off the host's list. -/
theorem step_of_pending_reset {s : State} {rest : List HostAction} (h : s.pending = .reset :: rest) :
    step s = .next (resetBlock { s with pending := rest }) := by
  simp [step, fetch, h]

/-! ### Which fields stay at zero -/

/-- A failed command writes no field but `STATUS` and `CRC`. -/
theorem fieldsOf_of_failed {i : Instr} (h : statusOf i ≠ .ok) : fieldsOf i = blankResult :=
  if_neg h

/-- What holds of the fields a command writes, and of no fields, holds of its record's fields. -/
theorem fieldsOf_of_writtenBy (P : Result → Prop) {i : Instr} (hw : P (writtenBy i))
    (hb : P blankResult) : P (fieldsOf i) := by
  unfold fieldsOf
  split
  · exact hw
  · exact hb

theorem writtenBy_noBusRequest {i : Instr} (hrd : ∀ reg, i ≠ .encRdreq reg)
    (hwr : ∀ reg v, i ≠ .encWr reg v) : NoBusRequest (writtenBy i) := by
  cases i with
  | encRdreq reg => exact absurd rfl (hrd reg)
  | encWr reg v => exact absurd rfl (hwr reg v)
  | _ => exact ⟨rfl, rfl, rfl, rfl, rfl, rfl, rfl, rfl, rfl⟩

theorem writtenBy_tx {i : Instr} (h : ∀ reg v, i ≠ .encWr reg v) :
    (writtenBy i).tx1 = 0#8 ∧ (writtenBy i).tx2 = 0#8 ∧ (writtenBy i).tx3 = 0#8 := by
  cases i with
  | encWr reg v => exact absurd rfl (h reg v)
  | _ => exact ⟨rfl, rfl, rfl⟩

theorem writtenBy_rx {i : Instr} (h : ∀ reg, i ≠ .encRdreq reg) :
    (writtenBy i).rxreq = 0#2 ∧ (writtenBy i).rxhold = 0#1 := by
  cases i with
  | encRdreq reg => exact absurd rfl (h reg)
  | _ => exact ⟨rfl, rfl⟩

theorem writtenBy_rdata {i : Instr}
    (h : ∀ reg wstat rxlen r0 r1 r2, i ≠ .decRd reg wstat rxlen r0 r1 r2) :
    (writtenBy i).rdata = 0#16 := by
  cases i with
  | decRd reg wstat rxlen r0 r1 r2 => exact absurd rfl (h reg wstat rxlen r0 r1 r2)
  | _ => rfl

theorem writtenBy_y32 {i : Instr} (h : ∀ lo hi, i ≠ .join32 lo hi) : (writtenBy i).y32 = 0#32 := by
  cases i with
  | join32 lo hi => exact absurd rfl (h lo hi)
  | _ => rfl

theorem writtenBy_words {i : Instr} (h : ∀ x, i ≠ .split32 x) :
    (writtenBy i).olo16 = 0#16 ∧ (writtenBy i).ohi16 = 0#16 := by
  cases i with
  | split32 x => exact absurd rfl (h x)
  | _ => exact ⟨rfl, rfl⟩

/-- 10_state.md R28, for a command that fails. -/
theorem recordOf_of_failed {i : Instr} (acc : Byte) (h : (recordOf i acc).status ≠ .ok) :
    NoBusRequest (recordOf i acc) ∧ NoValue (recordOf i acc) := by
  change NoBusRequest (fieldsOf i) ∧ NoValue (fieldsOf i)
  rw [fieldsOf_of_failed h]
  decide

/-! ### The statements of 10_state.md -/

/-- Settles O22: the record's fields are those the command's rule writes, or none where it fails. -/
theorem unwrittenFieldsReadZero : Obligations.UnwrittenFieldsReadZero := by
  intro i s hi
  refine ⟨_, recordOf i s.acc, exec_command hi s, rfl, recordOf_of_failed s.acc, ?bus, ?tx, ?rx,
    ?rdata, ?y32, ?words⟩
  case bus =>
    exact fun hrd hwr => fieldsOf_of_writtenBy NoBusRequest (writtenBy_noBusRequest hrd hwr) (by decide)
  case tx =>
    exact fun h => fieldsOf_of_writtenBy (fun r => r.tx1 = 0#8 ∧ r.tx2 = 0#8 ∧ r.tx3 = 0#8)
      (writtenBy_tx h) (by decide)
  case rx =>
    exact fun h => fieldsOf_of_writtenBy (fun r => r.rxreq = 0#2 ∧ r.rxhold = 0#1)
      (writtenBy_rx h) (by decide)
  case rdata =>
    exact fun h => fieldsOf_of_writtenBy (fun r => r.rdata = 0#16) (writtenBy_rdata h) rfl
  case y32 =>
    exact fun h => fieldsOf_of_writtenBy (fun r => r.y32 = 0#32) (writtenBy_y32 h) rfl
  case words =>
    exact fun h => fieldsOf_of_writtenBy (fun r => r.olo16 = 0#16 ∧ r.ohi16 = 0#16)
      (writtenBy_words h) (by decide)

/-- Settles O24: `exec_command` names the whole next state. -/
theorem commandsAnswerOnceAndTouchNothingElse : Obligations.CommandsAnswerOnceAndTouchNothingElse := by
  intro i s hi
  exact ⟨_, recordOf i s.acc, exec_command hi s, rfl, rfl, rfl, rfl⟩

/-- Settles O26: the record and the new `ACC` are functions of the operands and the old `ACC`. -/
theorem commandsSeeOnlyTheAccumulator : Obligations.CommandsSeeOnlyTheAccumulator := by
  intro i s u hi hacc
  refine ⟨_, _, recordOf i s.acc, exec_command hi s, exec_command hi u, rfl, ?_, ?_⟩
  · rw [afterCommand_results, hacc]
  · rw [afterCommand_acc, afterCommand_acc, hacc]

/-- Settles O33: both the start state and the block's reset hold `CRC_INIT`. -/
theorem resetClearsTheAccumulator : Obligations.ResetClearsTheAccumulator :=
  ⟨reset_acc, fun _ _ h => ⟨_, step_of_pending_reset h, resetBlock_acc _⟩⟩

end Sys2Proof.Proofs

/-! SUPPORT. What a step finds when the host has issued an encoded instruction, and the statement of
20_memory.md about it. -/

namespace Sys2Proof.Proofs

open Sys2Proof.Machine Sys2Proof.Laws

/-- A form that decodes is found as its instruction, to be performed once its action is off the host's
list. -/
theorem fetch_of_pending_decodes {s : State} {e : Encoded} {rest : List HostAction} {i : Instr}
    (hp : s.pending = .present e :: rest) (hd : decode e = .ok i) :
    fetch s = .run i { s with pending := rest } := by
  simp [fetch, hp, hd]

/-- What is found as an instruction is performed whole, in one step. -/
theorem step_of_fetch_run {s s' : State} {i : Instr} (h : fetch s = .run i s') :
    step s = exec i s' := by
  rw [step, h]

/-- Settles O30: the step performs what the fetch finds. -/
theorem stepRunsTheNextInstruction : Obligations.StepRunsTheNextInstruction :=
  fun _ _ _ _ hp hd => step_of_fetch_run (fetch_of_pending_decodes hp hd)

end Sys2Proof.Proofs

/-! SUPPORT. The decoder and the encoder against each other, and the statements of 30_encoding.md sections 1
and 3 about them. -/

namespace Sys2Proof.Proofs

open Sys2Proof.Machine Sys2Proof.Laws

/-- The sixteen values of `OP`. -/
theorem opcode_cases (op : BitVec 4) :
    op = 0x0#4 ∨ op = 0x1#4 ∨ op = 0x2#4 ∨ op = 0x3#4 ∨ op = 0x4#4 ∨ op = 0x5#4 ∨ op = 0x6#4 ∨
      op = 0x7#4 ∨ op = 0x8#4 ∨ op = 0x9#4 ∨ op = 0xA#4 ∨ op = 0xB#4 ∨ op = 0xC#4 ∨ op = 0xD#4 ∨
      op = 0xE#4 ∨ op = 0xF#4 := by
  revert op
  decide

/-- Encoding what a command decodes to clears the ports its opcode does not read (10_state.md R26). -/
theorem encode_decodeCommand (c : Command) :
    encode (decodeCommand c) = .command (canonicalCommand c) := by
  obtain ⟨op, byte, reg, wdata, wstat, rxlen, resp0, resp1, resp2, lo16, hi16, x32⟩ := c
  obtain rfl | rfl | rfl | rfl | rfl | rfl | rfl | rfl | rfl | rfl | rfl | rfl | rfl | rfl | rfl | rfl :=
    opcode_cases op <;> rfl

/-- The bytes of an accepted frame are the encoding of what it decodes to (30_encoding.md R67, R68). -/
theorem encode_of_decodeFrame {bytes : List Byte} {i : Instr} (h : decodeFrame bytes = .ok i) :
    encode i = .wire bytes := by
  unfold decodeFrame at h
  split at h
  case h_4 => cases h
  all_goals
    split at h
    case isTrue haddr => cases h; rw [haddr, encode]
    case isFalse => cases h

/-- Settles O13: each constructor's own ports or bytes are read back. -/
theorem decodeEncodeRoundTrip : Obligations.DecodeEncodeRoundTrip := by
  intro i
  cases i with
  | wireWr reg lo hi crc => exact decode_write_frame reg lo hi crc
  | wireRdreq reg => exact decode_request_frame reg
  | wireRdresp lo hi crc => exact decode_response_frame lo hi crc
  | _ => rfl

/-- What decodes to an instruction is, ignored ports aside, its encoding. -/
theorem canonical_of_decode {e : Encoded} {i : Instr} (h : decode e = .ok i) :
    canonical e = encode i := by
  cases e with
  | command c => cases h; exact (encode_decodeCommand c).symm
  | wire bytes => exact (encode_of_decodeFrame h).symm

/-- The decoder does not look at the ports that an opcode does not read. -/
theorem decode_canonical (e : Encoded) : decode (canonical e) = decode e := by
  cases e with
  | command c =>
    calc decode (canonical (.command c))
      _ = decode (encode (decodeCommand c)) := by rw [encode_decodeCommand, canonical]
      _ = .ok (decodeCommand c) := decodeEncodeRoundTrip _
      _ = decode (.command c) := (decode_command c).symm
  | wire bytes => rfl

/-- Settles O14: back from an encoding, by the round trip. -/
theorem decodedFormsAreTheEncodedOnes : Obligations.DecodedFormsAreTheEncodedOnes := by
  intro e i
  constructor
  · exact canonical_of_decode
  · intro h
    rw [← decode_canonical, h]
    exact decodeEncodeRoundTrip i

/-- Settles O11: the sixteen entries of the map (30_encoding.md R60). -/
theorem opcodeMapDecodes : Obligations.OpcodeMapDecodes := by
  intro c
  refine ⟨?_, ?_, ?_, ?_, ?_, ?_, ?_, ?_, ?_, ?_, ?_, ?_, ?_, ?_, ?_, ?_⟩ <;>
    · intro h
      simp [decodeCommand, h]

/-- Settles O12: each word is laid out and decoded. -/
theorem tableWordsDecode : Obligations.TableWordsDecode :=
  ⟨rfl, rfl, rfl, rfl, rfl, rfl, rfl, rfl⟩

/-- A direction bit below a device address doubles the address and adds the bit. -/
theorem toNat_append_bit (dev7 : BitVec 7) (dir : BitVec 1) :
    (dev7 ++ dir : Byte).toNat = 2 * dev7.toNat + dir.toNat :=
  calc (dev7 ++ dir : Byte).toNat
    _ = dev7.toNat <<< 1 ||| dir.toNat := BitVec.toNat_append dev7 dir
    _ = dev7.toNat <<< 1 + dir.toNat := (Nat.shiftLeft_add_eq_or_of_lt dir.isLt _).symm
    _ = 2 * dev7.toNat + dir.toNat := by rw [Nat.shiftLeft_eq, Nat.mul_comm, Nat.pow_one]

theorem writeAddress_eq_append (cfg : Config) : writeAddress cfg = cfg.devAddr7 ++ 0#1 := by
  apply BitVec.eq_of_toNat_eq
  have hlt := cfg.devAddr7.isLt
  simp only [toNat_append_bit, writeAddress, BitVec.toNat_mul, BitVec.toNat_setWidth, BitVec.toNat_ofNat]
  omega

theorem readAddress_eq_append (cfg : Config) : readAddress cfg = cfg.devAddr7 ++ 1#1 :=
  calc readAddress cfg
    _ = (cfg.devAddr7 ++ 0#1) ||| (0#7 ++ 1#1) := by rw [readAddress, writeAddress_eq_append]; rfl
    _ = (cfg.devAddr7 ||| 0#7) ++ (0#1 ||| 1#1) := BitVec.or_append
    _ = cfg.devAddr7 ++ 1#1 := by rw [BitVec.or_zero, BitVec.zero_or]

theorem writeAddress_toNat (cfg : Config) : (writeAddress cfg).toNat = 2 * cfg.devAddr7.toNat := by
  rw [writeAddress_eq_append, toNat_append_bit, BitVec.toNat_zero, Nat.add_zero]

/-- Settles O15: the direction bit stands below the device address (30_encoding.md R67). -/
theorem addressBytesCarryDirection : Obligations.AddressBytesCarryDirection :=
  ⟨fun cfg => ⟨writeAddress_eq_append cfg, readAddress_eq_append cfg, rfl, writeAddress_toNat cfg⟩,
    rfl, rfl⟩

end Sys2Proof.Proofs

/-! SUPPORT. What instructions leave legal, what a run of the host's commands leaves, and the statements of
30_encoding.md about steps and frames. -/

namespace Sys2Proof.Proofs

open Sys2Proof.Machine Sys2Proof.Laws

/-! ### Wire frames -/

/-- Settles O10: the default device address gives the address bytes 0x16 and 0x17. -/
theorem wireFramesPassOnTheBus : Obligations.WireFramesPassOnTheBus :=
  fun _ => ⟨fun _ _ _ _ => rfl, fun _ => rfl, fun _ _ _ => rfl⟩

/-- What is no command passes one legal transfer on the bus, whatever the state (30_encoding.md R70). -/
theorem exec_wire {i : Instr} (hw : i.isCommand ≠ true) :
    ∃ m, LegalTransfer m ∧ ∀ s, exec i s = passOnBus m s := by
  cases i with
  | wireWr reg lo hi crc =>
    exact ⟨writeTransfer Config.block reg lo hi crc, .inl ⟨rfl, rfl, rfl⟩, fun _ => rfl⟩
  | wireRdreq reg =>
    exact ⟨requestTransfer Config.block reg, .inr (.inl ⟨rfl, rfl, rfl⟩), fun _ => rfl⟩
  | wireRdresp lo hi crc =>
    exact ⟨responseTransfer Config.block lo hi crc, .inr (.inr ⟨rfl, rfl, rfl⟩), fun _ => rfl⟩
  | _ => exact absurd rfl hw

/-! ### The invariant -/

/-- The bus request of a record is none, a whole read, or a whole write with its checksum. -/
theorem recordOf_request (i : Instr) (acc : Byte) :
    NoBusRequest (recordOf i acc) ∨ (AsksRead (recordOf i acc) ∧ NoValue (recordOf i acc)) ∨
      (AsksWrite (recordOf i acc) ∧ NoValue (recordOf i acc)) := by
  cases i with
  | encRdreq reg =>
    exact .inr (.inl ⟨⟨rfl, rfl, rfl, rfl, rfl, rfl, rfl, rfl⟩, rfl, rfl, rfl, rfl⟩)
  | encWr reg v =>
    exact .inr (.inr ⟨⟨rfl, rfl, rfl, rfl, rfl, rfl, rfl⟩, rfl, rfl, rfl, rfl⟩)
  | _ =>
    exact .inl (fieldsOf_of_writtenBy NoBusRequest (writtenBy_noBusRequest nofun nofun) (by decide))

theorem recordOf_legal (i : Instr) (acc : Byte) : LegalResult (recordOf i acc) :=
  ⟨recordOf_of_failed acc, recordOf_request i acc⟩

/-- Every instruction keeps the invariant: a command adds a legal record, a frame a legal transfer. -/
theorem exec_keeps_legal {i : Instr} {s t : State} (hs : LegalState s) (h : exec i s = .next t) :
    LegalState t := by
  obtain ⟨hres, hbus⟩ := hs
  by_cases hi : i.isCommand = true
  · rw [exec_command hi] at h
    cases h
    exact ⟨List.forall_mem_append.2 ⟨hres, List.forall_mem_singleton.2 (recordOf_legal i s.acc)⟩, hbus⟩
  · obtain ⟨m, hm, hexec⟩ := exec_wire hi
    rw [hexec] at h
    cases h
    exact ⟨hres, List.forall_mem_append.2 ⟨hbus, List.forall_mem_singleton.2 hm⟩⟩

/-- Settles O36: a step that performs no instruction adds nothing to either list. -/
theorem stepKeepsTheInvariant : Obligations.StepKeepsTheInvariant := by
  intro s t hs h
  obtain ⟨-, hidle⟩ | ⟨rest, -, hreset⟩ | ⟨e, rest, err, -, -, hdrop⟩ | ⟨e, rest, i, -, -, hrun⟩ :=
    step_cases s
  · rw [hidle] at h
    cases h
    exact hs
  · rw [hreset] at h
    cases h
    exact hs
  · rw [hdrop] at h
    cases h
    exact hs
  · rw [hrun] at h
    exact exec_keeps_legal (s := { s with pending := rest }) hs h

/-! ### Commands on the ports -/

/-- Every opcode is a command's (30_encoding.md R62). -/
theorem isCommand_decodeCommand (c : Command) : (decodeCommand c).isCommand = true := by
  unfold decodeCommand
  split <;> rfl

/-- Only the reserved opcodes are illegal (60_exceptions.md R203). -/
theorem statusOf_eq_illegalCommand_iff (i : Instr) :
    statusOf i = .illegalCommand ↔
      i ∈ [Instr.reserved0, .reserved9, .reservedA, .reservedB, .reservedC, .reservedD, .reservedE,
        .reservedF] := by
  cases i with
  | decRd reg wstat rxlen resp0 resp1 resp2 => simp only [statusOf]; split_ifs <;> simp
  | wrDone wstat => simp only [statusOf]; split_ifs <;> simp
  | _ => simp [statusOf]

theorem decodeCommand_reserved_iff (c : Command) :
    decodeCommand c ∈ [Instr.reserved0, .reserved9, .reservedA, .reservedB, .reservedC, .reservedD,
        .reservedE, .reservedF] ↔
      c.op ∈ [0x0#4, 0x9#4, 0xA#4, 0xB#4, 0xC#4, 0xD#4, 0xE#4, 0xF#4] := by
  obtain h | h | h | h | h | h | h | h | h | h | h | h | h | h | h | h := opcode_cases c.op <;>
    simp [decodeCommand, h]

/-- An illegal command leaves `ACC` as it is (60_exceptions.md R203). -/
theorem accAfter_of_illegal {i : Instr} (h : statusOf i = .illegalCommand) (acc : Byte) :
    accAfter i acc = acc := by
  rw [statusOf_eq_illegalCommand_iff] at h
  simp only [List.mem_cons, List.not_mem_nil, or_false] at h
  obtain rfl | rfl | rfl | rfl | rfl | rfl | rfl | rfl := h <;> rfl

/-- A command the host has issued is taken off its list and answered, whatever its opcode. -/
theorem step_of_pending_command {s : State} {c : Command} {rest : List HostAction}
    (hp : s.pending = .present (.command c) :: rest) :
    step s = .next (afterCommand (decodeCommand c) { s with pending := rest }) :=
  (stepRunsTheNextInstruction s _ rest _ hp (decode_command c)).trans
    (exec_command (isCommand_decodeCommand c) _)

/-- Settles O29: the reserved opcodes decode to the reserved instructions, and only these are illegal. -/
theorem everyOpcodeIsACommandOrIllegal : Obligations.EveryOpcodeIsACommandOrIllegal := by
  intro s c rest hp
  refine ⟨decodeCommand c, _, recordOf (decodeCommand c) s.acc, decode_command c,
    step_of_pending_command hp, rfl, ?_, fun h => accAfter_of_illegal h s.acc⟩
  exact (statusOf_eq_illegalCommand_iff _).trans (decodeCommand_reserved_iff c)

/-! ### CHECKSUM -/

/-- A step on an issued encoding of a command. -/
theorem step_encode_command {i : Instr} (hi : i.isCommand = true) (s : State) (rest : List HostAction) :
    step { s with pending := .present (encode i) :: rest } =
      .next (afterCommand i { s with pending := rest }) :=
  (stepRunsTheNextInstruction _ _ rest i rfl (decodeEncodeRoundTrip i)).trans (exec_command hi _)

/-- The CRC_BYTEs of a byte sequence fold it into `ACC`, whatever `ACC` held. -/
theorem run_crcBytes (bytes : List Byte) (s : State) (rest : List HostAction) :
    ∃ t : State,
      Sys2Proof.core.run bytes.length
          { s with pending := bytes.map (fun b => .present (encode (.crcByte b))) ++ rest } = .next t ∧
        t.acc = checksumFrom s.acc bytes ∧ t.pending = rest := by
  induction bytes generalizing s with
  | nil => exact ⟨_, run_zero _, rfl, rfl⟩
  | cons b bs ih =>
    obtain ⟨t, hrun, hacc, hpending⟩ := ih (afterCommand (.crcByte b) s)
    exact ⟨t, (run_succ_of_next _ _ _ (step_encode_command rfl s _)).trans hrun, hacc, hpending⟩

/-- Settles O39: CRC_CLR leaves `CRC_INIT`, from which the bytes are folded. -/
theorem checksumPseudoInstruction : Obligations.ChecksumPseudoInstruction := by
  intro s bytes rest
  obtain ⟨t, hrun, hacc, hpending⟩ := run_crcBytes bytes (afterCommand .crcClr s) rest
  exact ⟨t, (run_succ_of_next _ _ _ (step_encode_command rfl s _)).trans hrun, hacc, hpending⟩

/-! ### The host's transfers -/

/-- The host's write of ENC_WR's record is a write frame's transfer (30_encoding.md R68). -/
theorem hostBusWrite_encWr (reg : Byte) (v : Half) (acc : Byte) :
    hostBusWrite (recordOf (.encWr reg v) acc) =
      writeTransfer Config.block reg (lowByte v) (highByte v) (checksum (writeFrame Config.block reg v)) := by
  rw [writeTransfer, writeAddress_eq_append]
  rfl

theorem hostBusWrite_encRdreq (reg acc : Byte) :
    hostBusWrite (recordOf (.encRdreq reg) acc) = requestTransfer Config.block reg := by
  rw [requestTransfer, writeAddress_eq_append]
  rfl

theorem hostBusRead_encRdreq (reg acc lo hi crc : Byte) :
    hostBusRead (recordOf (.encRdreq reg) acc) [lo, hi, crc] = responseTransfer Config.block lo hi crc := by
  rw [responseTransfer, readAddress_eq_append]
  rfl

/-- Settles O43: the four bytes of ENC_WR end in their checksum, and each transfer is the frame's. -/
theorem commandResultsAreTheWireFrames : Obligations.CommandResultsAreTheWireFrames := by
  constructor
  · intro s u reg v
    refine ⟨_, recordOf (.encWr reg v) s.acc, exec_command rfl s, rfl, ?_, ?_⟩
    · exact beq_self_eq_true (checksum (writeFrame Config.block reg v))
    · rw [hostBusWrite_encWr]
      rfl
  · intro s u reg lo hi crc
    refine ⟨_, recordOf (.encRdreq reg) s.acc, exec_command rfl s, rfl, ?_, rfl, ?_⟩
    · rw [hostBusWrite_encRdreq]
      rfl
    · rw [hostBusRead_encRdreq]
      rfl

end Sys2Proof.Proofs

/-! SUPPORT. What the pseudo-instructions READ, WRITE, READ32 and WRITE32 answer, and the statements of
30_encoding.md section 2 about them. -/

namespace Sys2Proof.Proofs

open Sys2Proof.Machine Sys2Proof.Laws

/-! ### Words -/

/-- A 16-bit word is its two bytes, the first received the low one (41_read_transaction.md R122). -/
theorem word16_eq_append (lo hi : Byte) : word16 lo hi = hi ++ lo :=
  calc word16 lo hi
    _ = (hi ++ lo).setWidth 16 := BitVec.setWidth_append_eq_shiftLeft_setWidth_or.symm
    _ = hi ++ lo := BitVec.setWidth_eq _

/-- The sum of a pair's words never carries (43_word_pair.md R160). -/
theorem joinWords_eq_append (lo16 hi16 : Half) : joinWords lo16 hi16 = hi16 ++ lo16 := by
  have hdisjoint : (hi16.setWidth 32 <<< 16) &&& lo16.setWidth 32 = 0#32 := by
    ext i hi
    simp only [BitVec.getElem_and, BitVec.getElem_shiftLeft, BitVec.getElem_setWidth]
    by_cases h : i < 16
    · simp [h]
    · simp [BitVec.getLsbD_of_ge lo16 i (by omega)]
  calc joinWords lo16 hi16
    _ = (hi16.setWidth 32 <<< 16) ||| lo16.setWidth 32 := BitVec.add_eq_or_of_and_eq_zero _ _ hdisjoint
    _ = (hi16 ++ lo16).setWidth 32 := BitVec.setWidth_append_eq_shiftLeft_setWidth_or.symm
    _ = hi16 ++ lo16 := BitVec.setWidth_eq _

theorem highByte_append_lowByte (v : Half) : highByte v ++ lowByte v = v :=
  BitVec.extractLsb'_append_extractLsb'

theorem lowerWord_eq_extract (x : Pair) : lowerWord x = x.extractLsb' 0 16 :=
  BitVec.setWidth_eq_extractLsb' (by decide)

theorem upperWord_eq_extract (x : Pair) : upperWord x = x.extractLsb' 16 16 :=
  BitVec.setWidth_ushiftRight_eq_extractLsb

/-! ### Statuses and records -/

theorem writeFailed_iff (wstat : Byte) : writeFailed wstat = true ↔ wstat ≠ 0x00#8 :=
  bne_iff_ne

theorem readFailed_iff (wstat : Byte) (rxlen : BitVec 2) :
    readFailed wstat rxlen = true ↔ wstat ≠ 0x00#8 ∨ rxlen ≠ 3#2 := by
  simp [readFailed, writeFailed_iff]

/-- The status a read ends with, from what the bus gave back. -/
def readStatus (reg : Byte) (b : BusRead) : Status :=
  if b.wstat ≠ 0x00#8 ∨ b.rxlen ≠ 3#2 then .busError
  else if checksum [0x16#8, reg, 0x17#8, b.resp0, b.resp1] ≠ b.resp2 then .checksumError
  else .ok

/-- The DEC_RD the host issues with what the bus gave back. -/
abbrev decRdOf (reg : Byte) (b : BusRead) : Instr :=
  .decRd reg b.wstat b.rxlen b.resp0 b.resp1 b.resp2

theorem statusOf_decRdOf (reg : Byte) (b : BusRead) : statusOf (decRdOf reg b) = readStatus reg b := by
  simp only [statusOf, readStatus, readFailed_iff]
  rfl

theorem statusOf_wrDone (wstat : Byte) :
    statusOf (.wrDone wstat) = if wstat ≠ 0x00#8 then .busError else .ok := by
  simp only [statusOf, writeFailed_iff]

/-! ### READ and WRITE -/

/-- The record of a READ's first command, performed in a state. -/
abbrev requestRecord (reg : Byte) (s : State) : Result := recordOf (.encRdreq reg) s.acc

/-- The record of a READ's second command. DEC_RD finds the `ACC` that ENC_RDREQ has left as it was. -/
abbrev responseRecord (reg : Byte) (b : BusRead) (s : State) : Result := recordOf (decRdOf reg b) s.acc

/-- The record of a WRITE's first command. -/
abbrev frameRecord (reg : Byte) (v : Half) (s : State) : Result := recordOf (.encWr reg v) s.acc

/-- The record of a WRITE's second command, which finds the frame's checksum in `ACC`. -/
abbrev doneRecord (reg : Byte) (v : Half) (wstat : Byte) : Result :=
  recordOf (.wrDone wstat) (checksum (writeFrame Config.block reg v))

@[simp] theorem requestRecord_tx0 (reg : Byte) (s : State) : (requestRecord reg s).tx0 = reg := rfl

@[simp] theorem responseRecord_tx0 (reg : Byte) (b : BusRead) (s : State) :
    (responseRecord reg b s).tx0 = 0x00#8 :=
  fieldsOf_of_writtenBy (fun r => r.tx0 = 0x00#8) rfl rfl

theorem responseRecord_status (reg : Byte) (b : BusRead) (s : State) :
    (responseRecord reg b s).status = readStatus reg b :=
  statusOf_decRdOf reg b

theorem responseRecord_rdata (reg : Byte) (b : BusRead) (s : State) :
    (responseRecord reg b s).rdata =
      if readStatus reg b = .ok then b.resp1 ++ b.resp0 else 0x0000#16 := by
  change (fieldsOf _).rdata = _
  rw [fieldsOf, statusOf_decRdOf, apply_ite Result.rdata, ← word16_eq_append]
  rfl

/-- The record of a read that fails: its status, and nothing in it (10_state.md R28). -/
theorem responseRecord_of_failed {reg : Byte} {b : BusRead} (h : readStatus reg b ≠ .ok) (s : State) :
    (responseRecord reg b s).status = readStatus reg b ∧
      NoBusRequest (responseRecord reg b s) ∧ NoValue (responseRecord reg b s) :=
  ⟨responseRecord_status reg b s, recordOf_of_failed s.acc (responseRecord_status reg b s ▸ h)⟩

/-- A frame's second and third byte are its value, low byte first (42_write_transaction.md R140). -/
theorem frameRecord_word (reg : Byte) (v : Half) (s : State) :
    (frameRecord reg v s).tx2 ++ (frameRecord reg v s).tx1 = v :=
  highByte_append_lowByte v

theorem doneRecord_status (reg : Byte) (v : Half) (wstat : Byte) :
    (doneRecord reg v wstat).status = if wstat ≠ 0x00#8 then .busError else .ok :=
  statusOf_wrDone wstat

/-- The state a READ leaves: two commands, whatever the first answered. -/
def afterRead (reg : Byte) (b : BusRead) (s : State) : State :=
  afterCommand (decRdOf reg b) (afterCommand (.encRdreq reg) s)

/-- The state a WRITE leaves. -/
def afterWrite (reg : Byte) (v : Half) (wstat : Byte) (s : State) : State :=
  afterCommand (.wrDone wstat) (afterCommand (.encWr reg v) s)

theorem pseudoRead_eq (reg : Byte) (b : BusRead) (s : State) :
    pseudoRead reg b s = .next (afterRead reg b s) := by
  rw [pseudoRead, exec_command rfl, andThen_next, exec_command rfl, afterRead]

theorem pseudoWrite_eq (reg : Byte) (v : Half) (wstat : Byte) (s : State) :
    pseudoWrite reg v wstat s = .next (afterWrite reg v wstat s) := by
  rw [pseudoWrite, exec_command rfl, andThen_next, exec_command rfl, afterWrite]

@[simp] theorem afterRead_results (reg : Byte) (b : BusRead) (s : State) :
    (afterRead reg b s).results = s.results ++ [requestRecord reg s, responseRecord reg b s] :=
  List.append_assoc ..

@[simp] theorem afterWrite_results (reg : Byte) (v : Half) (wstat : Byte) (s : State) :
    (afterWrite reg v wstat s).results = s.results ++ [frameRecord reg v s, doneRecord reg v wstat] :=
  List.append_assoc ..

/-- Settles O45: the two records of each, read off one by one. -/
theorem readAndWriteAreTwoCommandsEach : Obligations.ReadAndWriteAreTwoCommandsEach := by
  constructor
  · intro reg b s
    refine ⟨_, requestRecord reg s, responseRecord reg b s, pseudoRead_eq reg b s,
      afterRead_results reg b s, rfl, rfl, rfl, rfl, rfl, rfl, responseRecord_status reg b s, ?_⟩
    rw [responseRecord_rdata, responseRecord_status]
  · intro reg v wstat s
    exact ⟨_, frameRecord reg v s, doneRecord reg v wstat, pseudoWrite_eq reg v wstat s,
      afterWrite_results reg v wstat s, rfl, frameRecord_word reg v s, rfl, rfl, rfl,
      doneRecord_status reg v wstat⟩

/-! ### READ32 and WRITE32 -/

/-- After a command the host goes on with its record where its status is OK, and stops there otherwise. -/
theorem ifOk_afterCommand (i : Instr) (s : State) (f : Result → State → Host.Outcome State Fault Refusal) :
    ifOk (.next (afterCommand i s)) f =
      if statusOf i = .ok then f (recordOf i s.acc) (afterCommand i s)
      else .next (afterCommand i s) := by
  have hlast : lastResult (afterCommand i s) = some (recordOf i s.acc) := List.getLast?_concat
  rw [ifOk, andThen_next, hlast]
  rfl

theorem ifOk_pseudoRead (reg : Byte) (b : BusRead) (s : State)
    (f : Result → State → Host.Outcome State Fault Refusal) :
    ifOk (pseudoRead reg b s) f =
      if readStatus reg b = .ok then f (responseRecord reg b s) (afterRead reg b s)
      else .next (afterRead reg b s) := by
  rw [pseudoRead_eq, afterRead, ifOk_afterCommand, statusOf_decRdOf]
  rfl

theorem ifOk_pseudoWrite (reg : Byte) (v : Half) (wstat : Byte) (s : State)
    (f : Result → State → Host.Outcome State Fault Refusal) :
    ifOk (pseudoWrite reg v wstat s) f =
      if wstat = 0x00#8 then f (doneRecord reg v wstat) (afterWrite reg v wstat s)
      else .next (afterWrite reg v wstat s) := by
  have hstatus : statusOf (.wrDone wstat) = .ok ↔ wstat = 0x00#8 := by simp [statusOf_wrDone]
  rw [pseudoWrite_eq, afterWrite, ifOk_afterCommand]
  simp only [hstatus]
  rfl

/-- READ32 stops after the first read or the second, or joins the two words read (30_encoding.md R66). -/
theorem pseudoRead32_eq (addr : Byte) (b1 b2 : BusRead) (s : State) :
    pseudoRead32 addr b1 b2 s =
      if readStatus addr b1 = .ok then
        if readStatus (addr + 1#8) b2 = .ok then
          .next (afterCommand (.join32 (b1.resp1 ++ b1.resp0) (b2.resp1 ++ b2.resp0))
            (afterRead (addr + 1#8) b2 (afterRead addr b1 s)))
        else .next (afterRead (addr + 1#8) b2 (afterRead addr b1 s))
      else .next (afterRead addr b1 s) := by
  rw [pseudoRead32, ifOk_pseudoRead]
  split_ifs with h1 h2
  · rw [ifOk_pseudoRead, if_pos h2, exec_command rfl, responseRecord_rdata, responseRecord_rdata,
      if_pos h1, if_pos h2]
  · rw [ifOk_pseudoRead, if_neg h2]
  · rfl

/-- Settles O46, by which of the two reads fails first. -/
theorem read32JoinsThePairOrStops : Obligations.Read32JoinsThePairOrStops := by
  intro addr b1 b2 s
  have hread := pseudoRead32_eq addr b1 b2 s
  by_cases h1 : readStatus addr b1 = .ok
  · by_cases h2 : readStatus (addr + 1#8) b2 = .ok
    · rw [if_pos h1, if_pos h2] at hread
      refine ⟨_, [requestRecord addr s, responseRecord addr b1 s,
          requestRecord (addr + 1#8) (afterRead addr b1 s),
          responseRecord (addr + 1#8) b2 (afterRead addr b1 s)],
        recordOf (.join32 (b1.resp1 ++ b1.resp0) (b2.resp1 ++ b2.resp0))
          (afterRead (addr + 1#8) b2 (afterRead addr b1 s)).acc,
        hread, ?_, fun _ _ => ⟨?_, rfl, joinWords_eq_append _ _⟩, fun h => absurd h1 h,
        fun _ h => absurd h2 h⟩
      · simp
      · simp
    · rw [if_pos h1, if_neg h2] at hread
      refine ⟨_, [requestRecord addr s, responseRecord addr b1 s,
          requestRecord (addr + 1#8) (afterRead addr b1 s)],
        responseRecord (addr + 1#8) b2 (afterRead addr b1 s), hread, ?_,
        fun _ h => absurd h h2, fun h => absurd h1 h, fun _ _ => ⟨?_, responseRecord_of_failed h2 _⟩⟩
      · simp
      · simp
  · rw [if_neg h1] at hread
    refine ⟨_, [requestRecord addr s], responseRecord addr b1 s, hread, ?_, fun h => absurd h h1,
      fun _ => ⟨rfl, responseRecord_of_failed h1 s⟩, fun h => absurd h h1⟩
    simp

/-- WRITE32 stops after the first write or performs both (30_encoding.md R66). -/
theorem pseudoWrite32_eq (addr : Byte) (x : Pair) (wstat1 wstat2 : Byte) (s : State) :
    pseudoWrite32 addr x wstat1 wstat2 s =
      if wstat1 = 0x00#8 then
        .next (afterWrite (addr + 1#8) (upperWord x) wstat2
          (afterWrite addr (lowerWord x) wstat1 (afterCommand (.split32 x) s)))
      else .next (afterWrite addr (lowerWord x) wstat1 (afterCommand (.split32 x) s)) := by
  have hsplit : statusOf (.split32 x) = .ok := rfl
  rw [pseudoWrite32, exec_command rfl, ifOk_afterCommand, if_pos hsplit, ifOk_pseudoWrite,
    pseudoWrite_eq]
  rfl

/-- Settles O47, by whether the first write fails. -/
theorem write32WritesThePairOrStops : Obligations.Write32WritesThePairOrStops := by
  intro addr x wstat1 wstat2 s
  have hwrite := pseudoWrite32_eq addr x wstat1 wstat2 s
  have hlower := (frameRecord_word addr _ (afterCommand (.split32 x) s)).trans (lowerWord_eq_extract x)
  have hdone := doneRecord_status addr (lowerWord x) wstat1
  by_cases h : wstat1 = 0x00#8
  · rw [if_pos h] at hwrite
    rw [if_neg (not_not.2 h)] at hdone
    refine ⟨_, recordOf (.split32 x) s.acc, frameRecord addr (lowerWord x) (afterCommand (.split32 x) s),
      doneRecord addr (lowerWord x) wstat1,
      [frameRecord (addr + 1#8) (upperWord x)
          (afterWrite addr (lowerWord x) wstat1 (afterCommand (.split32 x) s)),
        doneRecord (addr + 1#8) (upperWord x) wstat2],
      hwrite, ?_, rfl, lowerWord_eq_extract x, upperWord_eq_extract x, rfl, hlower, rfl,
      fun hw => absurd h hw, fun _ => ⟨hdone, _, _, rfl, rfl, ?_, rfl, doneRecord_status _ _ wstat2⟩⟩
    · simp
    · exact (frameRecord_word _ _ _).trans (upperWord_eq_extract x)
  · rw [if_neg h] at hwrite
    rw [if_pos h] at hdone
    refine ⟨_, recordOf (.split32 x) s.acc, frameRecord addr (lowerWord x) (afterCommand (.split32 x) s),
      doneRecord addr (lowerWord x) wstat1, [], hwrite, ?_, rfl, lowerWord_eq_extract x,
      upperWord_eq_extract x, rfl, hlower, rfl, fun _ => ⟨hdone, rfl⟩, fun hw => absurd hw h⟩
    simp

end Sys2Proof.Proofs

/-! SUPPORT. The CRC engine: the round as a shift and a feedback, from which its linearity, its bijectivity
and the bit-serial form follow, and the statements of 40_crc_engine.md. -/

namespace Sys2Proof.Proofs

open Sys2Proof.Machine Sys2Proof.Laws

/-! ### The round -/

/-- What is XORed in after the shift: the polynomial where the tested bit is set (40_crc_engine.md R106). -/
def feedback (bit : Bool) : Byte :=
  if bit then Config.poly else 0x00#8

theorem feedback_xor (p q : Bool) : feedback (p ^^ q) = feedback p ^^^ feedback q := by
  cases p <;> cases q <;> rfl

theorem bitStep_eq (acc : Byte) (bit : Bool) :
    bitStep acc bit = (acc <<< 1) ^^^ feedback (acc.getLsbD 7 ^^ bit) := by
  unfold bitStep feedback
  split
  · rfl
  · exact BitVec.xor_zero.symm

theorem crcRound_eq_bitStep (a : Byte) : crcRound a = bitStep a false := by
  rw [crcRound, bitStep, Bool.xor_false]

theorem crcRound_eq (a : Byte) : crcRound a = (a <<< 1) ^^^ feedback (a.getLsbD 7) := by
  rw [crcRound_eq_bitStep, bitStep_eq, Bool.xor_false]

/-- Bit 7 is the weight 128. -/
theorem getLsbD_seven (a : Byte) : a.getLsbD 7 = decide (128 ≤ a.toNat) :=
  BitVec.getLsbD_last a

theorem shiftLeft_one_toNat (a : Byte) : (a <<< 1).toNat = 2 * a.toNat % 256 := by
  rw [BitVec.toNat_shiftLeft, Nat.shiftLeft_eq, Nat.mul_comm]

/-- Settles O16, by whether bit 7 is set: where it is clear, the doubling does not overflow. -/
theorem roundShiftsAndReduces : Obligations.RoundShiftsAndReduces := by
  intro a
  rw [crcRound, getLsbD_seven]
  by_cases h : 128 ≤ a.toNat
  · simp only [h, decide_true, if_true, BitVec.toNat_xor, shiftLeft_one_toNat]
    rfl
  · simp only [h, decide_false, Bool.false_eq_true, if_false, shiftLeft_one_toNat]
    omega

/-! ### Linearity and bijectivity -/

/-- The shift and the feedback are each linear (40_crc_engine.md R108). -/
theorem crcRound_xor (a b : Byte) : crcRound (a ^^^ b) = crcRound a ^^^ crcRound b := by
  simp only [crcRound_eq, BitVec.getLsbD_xor, feedback_xor, BitVec.shiftLeft_xor_distrib]
  ac_rfl

theorem crcRound_zero : crcRound 0x00#8 = 0x00#8 := by decide

/-- The round's only zero is zero (40_crc_engine.md R108): with bit 7 clear nothing is lost in the shift,
and with bit 7 set the result is odd. -/
theorem eq_zero_of_crcRound_eq_zero {a : Byte} (h : crcRound a = 0x00#8) : a = 0x00#8 := by
  have hround := roundShiftsAndReduces a
  rw [h] at hround
  apply BitVec.eq_of_toNat_eq
  by_cases ha : 128 ≤ a.toNat
  · rw [if_pos ha] at hround
    have hodd : 2 * a.toNat % 256 = 7 := Nat.xor_eq_zero_iff.1 hround.symm
    omega
  · rw [if_neg ha] at hround
    have hzero : 2 * a.toNat = 0 := hround.symm
    simpa using hzero

theorem crcRound_injective : Function.Injective crcRound := by
  intro a b h
  have hdiff : crcRound (a ^^^ b) = 0x00#8 := by rw [crcRound_xor, h, BitVec.xor_self]
  exact BitVec.xor_eq_zero_iff.1 (eq_zero_of_crcRound_eq_zero hdiff)

/-! ### The byte update -/

theorem crcRounds_eq_iterate (n : Nat) (a : Byte) : crcRounds n a = crcRound^[n] a := by
  induction n generalizing a with
  | zero => rfl
  | succ n ih => exact ih (crcRound a)

theorem byteStep_eq_iterate (acc b : Byte) : byteStep acc b = crcRound^[8] (acc ^^^ b) :=
  crcRounds_eq_iterate 8 (acc ^^^ b)

/-- The byte update is linear in accumulator and byte together. -/
theorem byteStep_xor (a b c d : Byte) :
    byteStep (a ^^^ b) (c ^^^ d) = byteStep a c ^^^ byteStep b d := by
  have hlinear : Function.Semiconj₂ crcRound^[8] (· ^^^ ·) (· ^^^ ·) :=
    Function.Semiconj₂.iterate crcRound_xor 8
  have hregroup : a ^^^ b ^^^ (c ^^^ d) = a ^^^ c ^^^ (b ^^^ d) := by ac_rfl
  rw [byteStep_eq_iterate, hregroup, hlinear.eq, ← byteStep_eq_iterate, ← byteStep_eq_iterate]

/-- A byte update can be undone where the byte is known. -/
theorem byteStep_left_injective (b : Byte) : Function.Injective (byteStep · b) := by
  intro a c h
  simp only [byteStep_eq_iterate] at h
  exact (BitVec.xor_left_inj b).1 (crcRound_injective.iterate 8 h)

theorem byteStep_right_injective (acc : Byte) : Function.Injective (byteStep acc) := by
  intro b c h
  simp only [byteStep_eq_iterate] at h
  exact (BitVec.xor_right_inj acc).1 (crcRound_injective.iterate 8 h)

/-- The accumulator's own value cancels it (40_crc_engine.md R107). -/
theorem byteStep_self (c : Byte) : byteStep c c = 0x00#8 := by
  rw [byteStep_eq_iterate, BitVec.xor_self, Function.iterate_fixed crcRound_zero]

/-! ### The bit-serial engine -/

/-- An input bit acts as bit 7 of the accumulator does, so a byte may be XORed in before the round, or
its top bit fed and its other bits XORed in after it. -/
theorem bitStep_xor_shiftLeft (acc c : Byte) :
    bitStep acc (c.getLsbD 7) ^^^ (c <<< 1) = crcRound (acc ^^^ c) := by
  rw [bitStep_eq, crcRound_eq, BitVec.getLsbD_xor, BitVec.shiftLeft_xor_distrib]
  ac_rfl

/-- Feeding the last `n` bits of a byte is `n` rounds of the accumulator XORed with these bits, moved up
to the top. -/
theorem bitSteps_eq_crcRounds (b : Byte) {n k : Nat} (hnk : n + k = 8) (acc : Byte) :
    bitSteps n acc b = crcRounds n (acc ^^^ (b <<< k)) := by
  induction n generalizing k acc with
  | zero =>
    rw [bitSteps, crcRounds, BitVec.shiftLeft_eq_zero (by omega), BitVec.xor_zero]
  | succ n ih =>
    have hbit : b.getLsbD n = (b <<< k).getLsbD 7 := by
      rw [BitVec.getLsbD_shiftLeft, show 7 - k = n by omega]
      simp [show ¬ 7 < k by omega]
    rw [bitSteps, crcRounds, ih (k := k + 1) (by omega), hbit, BitVec.shiftLeft_add,
      bitStep_xor_shiftLeft]

/-- Settles O18: all eight bits fed, the byte has not moved. -/
theorem bitSerialEqualsByteStep : Obligations.BitSerialEqualsByteStep := by
  intro acc b
  rw [bitSerialByte, bitSteps_eq_crcRounds b (k := 0) rfl, BitVec.shiftLeft_zero, byteStep]

/-! ### The checksum -/

/-- A byte appended is one more byte update (40_crc_engine.md R102). -/
theorem checksum_append_byte (bs : List Byte) (b : Byte) :
    checksum (bs ++ [b]) = byteStep (checksum bs) b :=
  checksum_append bs [b]

/-- Settles O17: the byte update as an iterate of the round, and the fold by its append law. -/
theorem checksumFoldsFromZero : Obligations.ChecksumFoldsFromZero :=
  ⟨byteStep_eq_iterate, rfl, checksum_append_byte⟩

/-- Settles O19: the appended byte meets its own value in the accumulator. -/
theorem checksumResidueIsZero : Obligations.ChecksumResidueIsZero :=
  ⟨byteStep_self, fun bs => (checksum_append_byte bs _).trans (byteStep_self _)⟩

/-- The fold is linear in accumulator and bytes together. -/
theorem checksumFrom_xor (a c : Byte) {bs cs : List Byte} (h : bs.length = cs.length) :
    checksumFrom a bs ^^^ checksumFrom c cs =
      checksumFrom (a ^^^ c) (List.zipWith (· ^^^ ·) bs cs) := by
  induction bs generalizing a c cs with
  | nil =>
    obtain rfl := List.length_eq_zero_iff.1 h.symm
    rfl
  | cons b bs ih =>
    cases cs with
    | nil => cases h
    | cons d ds =>
      rw [checksumFrom_cons, checksumFrom_cons, ih _ _ (Nat.succ.inj h), List.zipWith_cons_cons,
        checksumFrom_cons, byteStep_xor]

theorem checksumFrom_injective (bs : List Byte) : Function.Injective (checksumFrom · bs) := by
  induction bs with
  | nil => exact fun _ _ h => h
  | cons b bs ih => exact ih.comp (byteStep_left_injective b)

/-- A sequence around one of its bytes. -/
theorem checksum_append_cons (pre post : List Byte) (x : Byte) :
    checksum (pre ++ x :: post) = checksumFrom (byteStep (checksum pre) x) post :=
  checksum_append pre (x :: post)

/-- A changed byte changes the accumulator, and no later byte hides it (40_crc_engine.md R108). -/
theorem checksum_ne_of_byte_ne (pre post : List Byte) {x y : Byte} (h : x ≠ y) :
    checksum (pre ++ x :: post) ≠ checksum (pre ++ y :: post) := by
  rw [checksum_append_cons, checksum_append_cons]
  exact (checksumFrom_injective post).ne ((byteStep_right_injective _).ne h)

/-- Settles O20: both halves of the checksum's laws rest on the round being linear and injective. -/
theorem checksumIsLinearAndDetectsOneByte : Obligations.ChecksumIsLinearAndDetectsOneByte :=
  ⟨crcRound_xor, crcRound_zero, Finite.injective_iff_bijective.1 crcRound_injective,
    fun _ _ h => checksumFrom_xor Config.crcInit Config.crcInit h,
    fun pre post _ _ h => checksum_ne_of_byte_ne pre post h⟩

/-! ### The commands -/

/-- Settles O1: nothing is written beside `ACC`. -/
theorem crcClrClearsAccumulator : Obligations.CrcClrClearsAccumulator :=
  fun s => exec_command (i := .crcClr) rfl s

/-- Settles O2: the byte update is of the old `ACC`. -/
theorem crcByteFoldsByte : Obligations.CrcByteFoldsByte :=
  fun byte s => exec_command (i := .crcByte byte) rfl s

/-- A command whose new `ACC` does not depend on the old one answers alike in any two states. -/
theorem exec_forgets_acc {i : Instr} (hi : i.isCommand = true)
    (hacc : ∀ a c : Byte, accAfter i a = accAfter i c) (s u : State) :
    ∃ (t v : State) (r : Result), exec i s = .next t ∧ exec i u = .next v ∧
      t.results = s.results ++ [r] ∧ v.results = u.results ++ [r] ∧ t.acc = v.acc := by
  refine ⟨_, _, recordOf i s.acc, exec_command hi s, exec_command hi u, rfl, ?_, hacc s.acc u.acc⟩
  rw [afterCommand_results, recordOf, recordOf, hacc u.acc s.acc]

/-- Settles O27: a frame's checksum starts from `CRC_INIT` (40_crc_engine.md R103), and with the bus status OK
DEC_RD computes it. -/
theorem frameCommandsForgetTheAccumulator : Obligations.FrameCommandsForgetTheAccumulator :=
  fun s u => ⟨fun _ _ => exec_forgets_acc rfl (fun _ _ => rfl) s u,
    fun _ _ _ _ => exec_forgets_acc rfl (fun _ _ => rfl) s u⟩

end Sys2Proof.Proofs

/-! SUPPORT. What a read transaction's two commands answer, and the statements of 41_read_transaction.md. -/

namespace Sys2Proof.Proofs

open Sys2Proof.Machine Sys2Proof.Laws

/-- Settles O3: the accumulator goes through unchanged into `CRC`. -/
theorem encRdreqBuildsReadRequest : Obligations.EncRdreqBuildsReadRequest :=
  fun reg s => exec_command (i := .encRdreq reg) rfl s

/-! ### The three endings of DEC_RD -/

/-- The bus check comes before the checksum (60_exceptions.md R204). -/
theorem statusOf_decRd_of_busFailed {wstat : Byte} {rxlen : BitVec 2} (hbus : wstat ≠ 0x00#8 ∨ rxlen ≠ 3#2)
    (reg resp0 resp1 resp2 : Byte) :
    statusOf (.decRd reg wstat rxlen resp0 resp1 resp2) = .busError :=
  (statusOf_decRdOf reg ⟨wstat, rxlen, resp0, resp1, resp2⟩).trans (if_pos hbus)

theorem statusOf_decRd_of_checksum_ne {wstat : Byte} {rxlen : BitVec 2} {reg resp0 resp1 resp2 : Byte}
    (hbus : ¬ (wstat ≠ 0x00#8 ∨ rxlen ≠ 3#2))
    (hcrc : checksum [0x16#8, reg, 0x17#8, resp0, resp1] ≠ resp2) :
    statusOf (.decRd reg wstat rxlen resp0 resp1 resp2) = .checksumError :=
  (statusOf_decRdOf reg ⟨wstat, rxlen, resp0, resp1, resp2⟩).trans
    ((if_neg hbus).trans (if_pos hcrc))

theorem statusOf_decRd_of_checksum_eq {wstat : Byte} {rxlen : BitVec 2} {reg resp0 resp1 resp2 : Byte}
    (hbus : ¬ (wstat ≠ 0x00#8 ∨ rxlen ≠ 3#2))
    (hcrc : ¬ checksum [0x16#8, reg, 0x17#8, resp0, resp1] ≠ resp2) :
    statusOf (.decRd reg wstat rxlen resp0 resp1 resp2) = .ok :=
  (statusOf_decRdOf reg ⟨wstat, rxlen, resp0, resp1, resp2⟩).trans
    ((if_neg hbus).trans (if_neg hcrc))

/-- Where the bus succeeded, `ACC` becomes the checksum whether or not it matches. -/
theorem accAfter_decRd (reg wstat : Byte) (rxlen : BitVec 2) (resp0 resp1 resp2 acc : Byte) :
    accAfter (.decRd reg wstat rxlen resp0 resp1 resp2) acc =
      if wstat ≠ 0x00#8 ∨ rxlen ≠ 3#2 then acc else checksum [0x16#8, reg, 0x17#8, resp0, resp1] := by
  simp only [accAfter, readFailed_iff]
  rfl

/-- A failed command's record is its status and the new `ACC` (10_state.md R28). -/
theorem recordOf_eq_of_failed {i : Instr} {st : Status} (hst : statusOf i = st) (hne : st ≠ .ok)
    (acc : Byte) : recordOf i acc = { blankResult with status := st, crc := accAfter i acc } := by
  subst hst
  rw [recordOf, fieldsOf_of_failed hne]

/-- The record of a command that ends with OK has the fields its rule writes (10_state.md R27). -/
theorem recordOf_eq_of_ok {i : Instr} (hok : statusOf i = .ok) (acc : Byte) :
    recordOf i acc = { writtenBy i with status := .ok, crc := accAfter i acc } := by
  rw [recordOf, fieldsOf, if_pos hok, hok]

/-- Settles O4, by the three endings. -/
theorem decRdChecksTheResponse : Obligations.DecRdChecksTheResponse := by
  intro reg wstat rxlen resp0 resp1 resp2 s
  rw [exec_command rfl, afterCommand]
  split_ifs with hbus hcrc
  · rw [recordOf_eq_of_failed (statusOf_decRd_of_busFailed hbus ..) (by decide), accAfter_decRd, if_pos hbus]
    rfl
  · rw [recordOf_eq_of_failed (statusOf_decRd_of_checksum_ne hbus hcrc) (by decide), accAfter_decRd,
      if_neg hbus]
    rfl
  · rw [recordOf_eq_of_ok (statusOf_decRd_of_checksum_eq hbus hcrc), accAfter_decRd, if_neg hbus, writtenBy,
      word16_eq_append]
    rfl

/-! ### Failed reads -/

/-- A failed command returns no data (10_state.md R28). -/
theorem recordOf_rdata_of_failed {i : Instr} {acc : Byte} (h : (recordOf i acc).status ≠ .ok) :
    (recordOf i acc).rdata = 0x0000#16 := by
  obtain ⟨-, hrdata, -⟩ := recordOf_of_failed acc h
  exact hrdata

/-- Where the bus succeeded and the third byte is not the checksum, DEC_RD reports it and returns no data. -/
theorem exec_decRd_of_checksum_ne {reg lo hi crc : Byte}
    (h : checksum [0x16#8, reg, 0x17#8, lo, hi] ≠ crc) (s : State) :
    ∃ (t : State) (r : Result), exec (.decRd reg 0x00#8 3#2 lo hi crc) s = .next t ∧
      t.results = s.results ++ [r] ∧ r.status = .checksumError ∧ r.rdata = 0x0000#16 := by
  have hstatus : statusOf (.decRd reg 0x00#8 3#2 lo hi crc) = .checksumError :=
    statusOf_decRd_of_checksum_ne (by decide) h
  exact ⟨_, _, exec_command rfl s, rfl, hstatus, recordOf_rdata_of_failed (by simp [hstatus])⟩

/-- Settles O21: a changed byte of the frame changes its checksum (40_crc_engine.md R108), and a changed
third byte no longer equals it. -/
theorem corruptedResponseIsDetected : Obligations.CorruptedResponseIsDetected := by
  intro s reg lo hi
  refine ⟨fun x hx => exec_decRd_of_checksum_ne ?lo s, fun x hx => exec_decRd_of_checksum_ne ?hi s,
    fun x hx => exec_decRd_of_checksum_ne hx.symm s, fun x hx => exec_decRd_of_checksum_ne ?reg s⟩
  case lo => exact checksum_ne_of_byte_ne [0x16#8, reg, 0x17#8] [hi] hx
  case hi => exact checksum_ne_of_byte_ne [0x16#8, reg, 0x17#8, lo] [] hx
  case reg => exact checksum_ne_of_byte_ne [0x16#8] [0x17#8, lo, hi] hx

/-- Settles O23: a failed command returns no data, and a short read fails the bus check. -/
theorem failedReadReturnsNoData : Obligations.FailedReadReturnsNoData := by
  intro reg wstat rxlen resp0 resp1 resp2 s
  refine ⟨_, _, exec_command rfl s, rfl, recordOf_rdata_of_failed, fun hshort => ?_⟩
  have hlen : rxlen ≠ 3#2 := by
    rintro rfl
    exact absurd hshort (by decide)
  have hstatus : statusOf (.decRd reg wstat rxlen resp0 resp1 resp2) = .busError :=
    statusOf_decRd_of_busFailed (.inr hlen) reg resp0 resp1 resp2
  exact ⟨hstatus, recordOf_rdata_of_failed (by simp [hstatus])⟩

end Sys2Proof.Proofs

/-! SUPPORT. What a write transaction's two commands answer, a read of the bytes it sent, and the statements
of 42_write_transaction.md. -/

namespace Sys2Proof.Proofs

open Sys2Proof.Machine Sys2Proof.Laws

/-! ### The commands -/

/-- Settles O5: the frame's bytes and its checksum are functions of the operands alone. -/
theorem encWrBuildsWriteFrame : Obligations.EncWrBuildsWriteFrame :=
  fun reg wdata s => exec_command (i := .encWr reg wdata) rfl s

/-- Settles O6, by whether the host's write failed. -/
theorem wrDoneReportsBusStatus : Obligations.WrDoneReportsBusStatus := by
  intro wstat s
  have hstatus := statusOf_wrDone wstat
  rw [exec_command rfl, afterCommand]
  split_ifs with hbus
  · rw [recordOf_eq_of_failed (hstatus.trans (if_pos hbus)) (by decide)]
    rfl
  · rw [recordOf_eq_of_ok (hstatus.trans (if_neg hbus))]
    rfl

/-! ### The echoing device -/

/-- What the bus gives back when the device echoes a stored value (42_write_transaction.md R144): low byte
first, with a correct checksum, both bus primitives succeeding. -/
def echoRead (reg : Byte) (v : Half) : BusRead :=
  { wstat := 0x00#8, rxlen := 3#2, resp0 := lowByte v, resp1 := highByte v,
    resp2 := checksum [0x16#8, reg, 0x17#8, lowByte v, highByte v] }

theorem readStatus_echoRead (reg : Byte) (v : Half) : readStatus reg (echoRead reg v) = .ok := by
  simp [readStatus, echoRead]

/-- A read of the echoed bytes gives back the value they were taken from. -/
theorem responseRecord_echoRead_rdata (reg : Byte) (v : Half) (s : State) :
    (responseRecord reg (echoRead reg v) s).rdata = v := by
  rw [responseRecord_rdata, if_pos (readStatus_echoRead reg v)]
  exact highByte_append_lowByte v

/-- A write and a read right after it add their four records, in order. -/
theorem afterRead_afterWrite_results (reg : Byte) (v : Half) (wstat : Byte) (b : BusRead) (s : State) :
    (afterRead reg b (afterWrite reg v wstat s)).results =
      s.results ++ [frameRecord reg v s, doneRecord reg v wstat,
        requestRecord reg (afterWrite reg v wstat s), responseRecord reg b (afterWrite reg v wstat s)] := by
  rw [afterRead_results, afterWrite_results, List.append_assoc]
  rfl

/-- Settles O41: the write's record carries the bytes the device echoes, and the read's checksum matches. -/
theorem writeThenReadBackRoundTrip : Obligations.WriteThenReadBackRoundTrip := by
  intro s reg v lo hi
  exact ⟨_, afterWrite reg v 0x00#8 s, _, afterRead reg (echoRead reg v) (afterWrite reg v 0x00#8 s),
    frameRecord reg v s, doneRecord reg v 0x00#8, requestRecord reg _, responseRecord reg (echoRead reg v) _,
    exec_command rfl s, exec_command rfl _, exec_command rfl _, exec_command rfl _,
    afterRead_afterWrite_results reg v 0x00#8 (echoRead reg v) s, rfl, rfl, rfl,
    doneRecord_status reg v 0x00#8,
    (responseRecord_status reg (echoRead reg v) _).trans (readStatus_echoRead reg v),
    responseRecord_echoRead_rdata reg v _⟩

end Sys2Proof.Proofs

/-! SUPPORT. The two words of a pair, and the statements of 43_word_pair.md. -/

namespace Sys2Proof.Proofs

open Sys2Proof.Machine Sys2Proof.Laws

/-! ### The join and the split as functions -/

/-- A pair is its two halves joined (43_word_pair.md R162). -/
theorem joinWords_lowerWord_upperWord (x : Pair) : joinWords (lowerWord x) (upperWord x) = x := by
  rw [joinWords_eq_append, lowerWord_eq_extract, upperWord_eq_extract]
  exact BitVec.extractLsb'_append_extractLsb'

theorem lowerWord_joinWords (lo16 hi16 : Half) : lowerWord (joinWords lo16 hi16) = lo16 := by
  rw [joinWords_eq_append, lowerWord_eq_extract, BitVec.extractLsb'_append_eq_right]

theorem upperWord_joinWords (lo16 hi16 : Half) : upperWord (joinWords lo16 hi16) = hi16 := by
  rw [joinWords_eq_append, upperWord_eq_extract, BitVec.extractLsb'_append_eq_left]

/-! ### The commands -/

/-- Settles O7: the sum is the concatenation. -/
theorem join32JoinsWords : Obligations.Join32JoinsWords :=
  fun lo16 hi16 s => ⟨joinWords_eq_append lo16 hi16, exec_command (i := .join32 lo16 hi16) rfl s⟩

/-- Settles O8: the two words are functions of the operand alone. -/
theorem split32SplitsValue : Obligations.Split32SplitsValue :=
  fun x32 s => exec_command (i := .split32 x32) rfl s

/-- Settles O42: the second command takes its operands from the first one's record. -/
theorem splitJoinAreInverse : Obligations.SplitJoinAreInverse := by
  constructor
  · intro s x
    exact ⟨_, _, recordOf (.split32 x) s.acc, recordOf (.join32 (lowerWord x) (upperWord x)) s.acc,
      exec_command rfl s, rfl, exec_command rfl _, rfl, joinWords_lowerWord_upperWord x⟩
  · intro s lo hi
    exact ⟨_, _, recordOf (.join32 lo hi) s.acc, recordOf (.split32 (joinWords lo hi)) s.acc,
      exec_command rfl s, rfl, exec_command rfl _, rfl, lowerWord_joinWords lo hi,
      upperWord_joinWords lo hi⟩

end Sys2Proof.Proofs

/-! SUPPORT. The status of a command on the ports and what each failure leaves in `ACC`, and the statements of
60_exceptions.md. -/

namespace Sys2Proof.Proofs

open Sys2Proof.Machine Sys2Proof.Laws

/-! ### The reserved opcodes -/

/-- Only a command can be illegal: a wire frame has no status to fail with. -/
theorem isCommand_of_illegal {i : Instr} (h : statusOf i = .illegalCommand) : i.isCommand = true := by
  cases i with
  | wireWr | wireRdreq | wireRdresp => cases h
  | _ => rfl

/-- Settles O9: an illegal command fails, so it writes no field, and it leaves `ACC`. -/
theorem reservedOpcodesAreIllegal : Obligations.ReservedOpcodesAreIllegal := by
  intro i s hi
  have hstatus : statusOf i = .illegalCommand := (statusOf_eq_illegalCommand_iff i).2 hi
  rw [exec_command (isCommand_of_illegal hstatus), afterCommand,
    recordOf_eq_of_failed hstatus (by decide), accAfter_of_illegal hstatus]
  rfl

/-! ### The status of a command on the ports -/

/-- The opcodes 0x0 and 0x9 to 0xF are the reserved ones (60_exceptions.md R203). -/
theorem reserved_opcode_iff (op : BitVec 4) :
    op = 0x0#4 ∨ 9 ≤ op.toNat ↔ op ∈ [0x0#4, 0x9#4, 0xA#4, 0xB#4, 0xC#4, 0xD#4, 0xE#4, 0xF#4] := by
  revert op
  decide

theorem opcode_cases_of_no_failure {op : BitVec 4} (hres : ¬ (op = 0x0#4 ∨ 9 ≤ op.toNat))
    (hrd : op ≠ 0x4#4) (hwr : op ≠ 0x6#4) :
    op = 0x1#4 ∨ op = 0x2#4 ∨ op = 0x3#4 ∨ op = 0x5#4 ∨ op = 0x7#4 ∨ op = 0x8#4 := by
  revert op
  decide

theorem decodeCommand_of_op_decRd {c : Command} (h : c.op = 0x4#4) :
    decodeCommand c = .decRd c.reg c.wstat c.rxlen c.resp0 c.resp1 c.resp2 := by
  simp [decodeCommand, h]

theorem decodeCommand_of_op_wrDone {c : Command} (h : c.op = 0x6#4) :
    decodeCommand c = .wrDone c.wstat := by
  simp [decodeCommand, h]

/-- The other six commands have no error condition (60_exceptions.md R200). -/
theorem statusOf_decodeCommand_of_no_failure {c : Command} (hres : ¬ (c.op = 0x0#4 ∨ 9 ≤ c.op.toNat))
    (hrd : c.op ≠ 0x4#4) (hwr : c.op ≠ 0x6#4) : statusOf (decodeCommand c) = .ok := by
  obtain h | h | h | h | h | h := opcode_cases_of_no_failure hres hrd hwr <;>
    simp [decodeCommand, h, statusOf]

/-- The priority of 60_exceptions.md R204, read off the ports. -/
theorem statusOf_decodeCommand (c : Command) :
    statusOf (decodeCommand c) =
      if c.op = 0x0#4 ∨ 9 ≤ c.op.toNat then .illegalCommand
      else if (c.op = 0x4#4 ∧ (c.wstat ≠ 0x00#8 ∨ c.rxlen ≠ 3#2)) ∨ (c.op = 0x6#4 ∧ c.wstat ≠ 0x00#8) then
        .busError
      else if c.op = 0x4#4 ∧ checksum [0x16#8, c.reg, 0x17#8, c.resp0, c.resp1] ≠ c.resp2 then
        .checksumError
      else .ok := by
  by_cases hres : c.op = 0x0#4 ∨ 9 ≤ c.op.toNat
  · rw [if_pos hres, statusOf_eq_illegalCommand_iff, decodeCommand_reserved_iff, ← reserved_opcode_iff]
    exact hres
  rw [if_neg hres]
  by_cases hrd : c.op = 0x4#4
  · rw [decodeCommand_of_op_decRd hrd,
      statusOf_decRdOf c.reg ⟨c.wstat, c.rxlen, c.resp0, c.resp1, c.resp2⟩]
    simp [readStatus, hrd]
  by_cases hwr : c.op = 0x6#4
  · rw [decodeCommand_of_op_wrDone hwr, statusOf_wrDone]
    simp [hwr]
  · rw [statusOf_decodeCommand_of_no_failure hres hrd hwr]
    simp [hrd, hwr]

/-- The four codes tell the four statuses apart (60_exceptions.md R200). -/
theorem statusCode_injective : Function.Injective statusCode := by
  intro a b h
  cases a <;> cases b <;> revert h <;> decide

/-! ### What a failure leaves in the accumulator -/

/-- A command that is told of a bus failure leaves `ACC` as it is (60_exceptions.md R200). -/
theorem accAfter_of_busError {i : Instr} (h : statusOf i = .busError) (acc : Byte) :
    accAfter i acc = acc := by
  cases i with
  | decRd reg wstat rxlen resp0 resp1 resp2 =>
    rw [accAfter_decRd]
    by_cases hbus : wstat ≠ 0x00#8 ∨ rxlen ≠ 3#2
    · exact if_pos hbus
    · rw [statusOf_decRdOf reg ⟨wstat, rxlen, resp0, resp1, resp2⟩, readStatus, if_neg hbus] at h
      split_ifs at h
  | wrDone wstat => rfl
  | _ => cases h

/-- A checksum error is a DEC_RD's, and `ACC` then holds the checksum it computed (60_exceptions.md R202). -/
theorem accAfter_of_checksumError {c : Command} (h : statusOf (decodeCommand c) = .checksumError)
    (acc : Byte) :
    accAfter (decodeCommand c) acc = checksum [0x16#8, c.reg, 0x17#8, c.resp0, c.resp1] := by
  rw [statusOf_decodeCommand] at h
  split_ifs at h with hres hbus hcrc
  obtain ⟨hrd, -⟩ := hcrc
  rw [decodeCommand_of_op_decRd hrd, accAfter_decRd, if_neg fun hfail => hbus (.inl ⟨hrd, hfail⟩)]

/-- Settles O28: the code is the status's, and each code names one status. -/
theorem statusOfEveryCommandByPriority : Obligations.StatusOfEveryCommandByPriority := by
  intro s c rest hp
  refine ⟨_, recordOf (decodeCommand c) s.acc, step_of_pending_command hp, rfl, rfl, rfl, ?code, ?kept,
    ?computed⟩
  case code =>
    rw [recordOf_status, statusOf_decodeCommand]
    simp only [apply_ite statusCode]
    rfl
  case kept =>
    rintro (hbus | hillegal)
    · exact accAfter_of_busError (statusCode_injective hbus) s.acc
    · exact accAfter_of_illegal (statusCode_injective hillegal) s.acc
  case computed =>
    exact fun hcrc => accAfter_of_checksumError (statusCode_injective hcrc) s.acc

end Sys2Proof.Proofs

/-! SUPPORT. What an instruction of any kind leaves in `ACC` and on the host's list, what whole transactions
leave on the bus, and the statements of 70_reset_and_hazards.md. -/

namespace Sys2Proof.Proofs

open Sys2Proof.Machine Sys2Proof.Laws

/-! ### Every instruction completes -/

/-- The instructions of 70_reset_and_hazards.md R249: only DEC_RD needs a look at its operands. -/
theorem accAfter_of_keepsAcc {i : Instr} (h : i.keepsAcc = true) (acc : Byte) : accAfter i acc = acc := by
  cases i with
  | decRd reg wstat rxlen resp0 resp1 resp2 => exact if_pos h
  | crcClr | crcByte | encWr => cases h
  | _ => rfl

/-- The block does not observe a frame (70_reset_and_hazards.md R245). -/
theorem keepsAcc_of_wire {i : Instr} (hw : i.isCommand ≠ true) : i.keepsAcc = true := by
  cases i with
  | wireWr | wireRdreq | wireRdresp => rfl
  | _ => exact absurd rfl hw

/-- Commands and frames alike complete, set `ACC` by their rule, and leave the host's list. -/
theorem exec_next (i : Instr) (s : State) :
    ∃ t : State, exec i s = .next t ∧ t.acc = accAfter i s.acc ∧ t.pending = s.pending := by
  by_cases hi : i.isCommand = true
  · exact ⟨_, exec_command hi s, rfl, rfl⟩
  · obtain ⟨m, -, hexec⟩ := exec_wire hi
    exact ⟨_, hexec s, (accAfter_of_keepsAcc (keepsAcc_of_wire hi) s.acc).symm, rfl⟩

/-- Settles O25: the rule of such an instruction leaves `ACC`. -/
theorem accumulatorKeptByOtherInstructions : Obligations.AccumulatorKeptByOtherInstructions := by
  intro i s hi
  obtain ⟨t, hexec, hacc, -⟩ := exec_next i s
  exact ⟨t, hexec, hacc.trans (accAfter_of_keepsAcc hi s.acc)⟩

/-- Settles O37, by what the step finds. -/
theorem stepNeverStops : Obligations.StepNeverStops := by
  intro s
  obtain ⟨hp, hidle⟩ | ⟨rest, hp, hreset⟩ | ⟨e, rest, err, hp, -, hdrop⟩ | ⟨e, rest, i, hp, -, hrun⟩ :=
    step_cases s
  · exact ⟨s, hidle, by rw [hp, List.tail_nil]⟩
  · exact ⟨_, hreset, by rw [hp, List.tail_cons, resetBlock_pending]⟩
  · exact ⟨_, hdrop, by rw [hp, List.tail_cons]⟩
  · obtain ⟨t, hexec, -, hpending⟩ := exec_next i { s with pending := rest }
    exact ⟨t, hrun.trans hexec, by rw [hp, List.tail_cons, hpending]⟩

/-! ### Runs over instructions -/

/-- Performing any encoded instructions the host has issued folds their rules for `ACC`. -/
theorem run_encoded (is : List Instr) {s : State} {rest : List HostAction}
    (hp : s.pending = is.map (fun i => .present (encode i)) ++ rest) :
    ∃ t : State, Sys2Proof.core.run is.length s = .next t ∧
      t.acc = is.foldl (fun acc i => accAfter i acc) s.acc ∧ t.pending = rest := by
  induction is generalizing s with
  | nil => exact ⟨s, run_zero s, rfl, hp⟩
  | cons i is ih =>
    have hstep := stepRunsTheNextInstruction s _ _ i hp (decodeEncodeRoundTrip i)
    obtain ⟨u, hexec, huacc, hupending⟩ := exec_next i { s with pending := is.map _ ++ rest }
    obtain ⟨t, hrun, hacc, hpending⟩ := ih hupending
    refine ⟨t, (run_succ_of_next _ _ _ (hstep.trans hexec)).trans hrun, ?_, hpending⟩
    rw [hacc, huacc, List.foldl_cons]

/-- An instruction that keeps `ACC` feeds no byte. -/
theorem streamedBytes_cons_of_keepsAcc {i : Instr} (h : i.keepsAcc = true) (is : List Instr) :
    streamedBytes (i :: is) = streamedBytes is := by
  cases i with
  | crcByte => cases h
  | _ => rfl

/-- Of CRC_BYTEs and instructions that keep `ACC`, only the bytes fed count. -/
theorem foldl_accAfter_eq_checksumFrom {is : List Instr}
    (h : ∀ i ∈ is, i.keepsAcc = true ∨ ∃ b : Byte, i = .crcByte b) (acc : Byte) :
    is.foldl (fun acc i => accAfter i acc) acc = checksumFrom acc (streamedBytes is) := by
  induction is generalizing acc with
  | nil => rfl
  | cons i is ih =>
    obtain ⟨hi, his⟩ := List.forall_mem_cons.1 h
    rw [List.foldl_cons, ih his]
    obtain hkeep | ⟨b, rfl⟩ := hi
    · rw [accAfter_of_keepsAcc hkeep, streamedBytes_cons_of_keepsAcc hkeep]
    · rfl

/-- Settles O40: CRC_CLR leaves `CRC_INIT`, from which the bytes fed are folded. -/
theorem streamSurvivesSafeInterleaving : Obligations.StreamSurvivesSafeInterleaving := by
  intro s is rest his
  obtain ⟨t, hrun, hacc, hpending⟩ := run_encoded (.crcClr :: is)
    (s := { s with pending := (Instr.crcClr :: is).map (fun i => .present (encode i)) ++ rest }) rfl
  exact ⟨t, hrun, hacc.trans (foldl_accAfter_eq_checksumFrom his Config.crcInit), hpending⟩

/-- ILLEGAL_COMMAND is the reserved opcodes' status (60_exceptions.md R203). -/
theorem statusOf_decodeCommand_eq_illegalCommand_iff (c : Command) :
    statusOf (decodeCommand c) = .illegalCommand ↔ (c.op = 0x0#4 ∨ 9 ≤ c.op.toNat) := by
  rw [statusOf_eq_illegalCommand_iff, decodeCommand_reserved_iff, reserved_opcode_iff]

/-- Settles O38, by induction on the commands: the first one's record is the first, and the others are
answered from the state it leaves. -/
theorem runAnswersEveryCommandInOrder : Obligations.RunAnswersEveryCommandInOrder := by
  intro s cs rest
  induction cs generalizing s with
  | nil => exact ⟨_, [], run_zero _, rfl, (List.append_nil _).symm, rfl, rfl, nofun⟩
  | cons c cs ih =>
    intro start
    have hfirst (k : Nat) := run_succ_of_next k start _ (step_of_pending_command rfl)
    obtain ⟨t, rs, hrun, hpending, hresults, hlength, hbus, hkth⟩ := ih (afterCommand (decodeCommand c) s)
    refine ⟨t, recordOf (decodeCommand c) s.acc :: rs, (hfirst _).trans hrun, hpending, ?_,
      congrArg Nat.succ hlength, hbus, ?_⟩
    · rw [hresults, afterCommand_results, List.append_assoc, List.singleton_append]
    · rintro (_ | k) d hd
      · obtain rfl : c = d := Option.some.inj hd
        exact ⟨start, _, recordOf (decodeCommand c) s.acc, run_zero start, (List.append_nil _).symm,
          exec_command (isCommand_decodeCommand c) _, (hfirst 0).trans (run_zero _), rfl, rfl,
          statusOf_decodeCommand_eq_illegalCommand_iff c⟩
      · obtain ⟨u, v, r, hu, hures, hexec, hv, hvres, hr, hillegal⟩ := hkth k d hd
        refine ⟨u, v, r, (hfirst k).trans hu, ?_, hexec, (hfirst (k + 1)).trans hv, hvres, hr, hillegal⟩
        rw [hures, afterCommand_results, List.append_assoc, List.singleton_append, List.take_succ_cons]

/-! ### Whole transactions -/

/-- A transfer that ends with a stop is a whole transaction, unless it is a response. -/
theorem exclusiveBus_cons_of_stop {t : Transfer} (h : t.stop = true) (us : List Transfer) :
    exclusiveBus (t :: us) = (t.address != 0x17#8 && exclusiveBus us) := by
  cases us with
  | nil => simp [exclusiveBus, h]
  | cons u us => simp [exclusiveBus, h]

/-- After whole transactions the bus is as good as a fresh one. -/
theorem exclusiveBus_append {ts : List Transfer} (h : exclusiveBus ts = true) (us : List Transfer) :
    exclusiveBus (ts ++ us) = exclusiveBus us := by
  induction ts using exclusiveBus.induct with
  | case1 => rfl
  | case2 t =>
    obtain ⟨hstop, haddr⟩ := Bool.and_eq_true_iff.1 h
    rw [List.singleton_append, exclusiveBus_cons_of_stop hstop, haddr, Bool.true_and]
  | case3 t u ts hstop ih =>
    rw [exclusiveBus_cons_of_stop hstop, Bool.and_eq_true] at h
    obtain ⟨haddr, hts⟩ := h
    rw [List.cons_append, exclusiveBus_cons_of_stop hstop, haddr, Bool.true_and, ih hts]
  | case4 t u ts hopen ih =>
    rw [exclusiveBus, if_neg hopen, Bool.and_eq_true] at h
    obtain ⟨hclosed, hts⟩ := h
    rw [List.cons_append, List.cons_append, exclusiveBus, if_neg hopen, hclosed, Bool.true_and, ih hts]

/-- Settles O44: a write, and a request with its response, are whole on a fresh bus, and a request is not. -/
theorem wholeTransactionsKeepTheBusExclusive : Obligations.WholeTransactionsKeepTheBusExclusive := by
  intro s hs
  constructor
  · intro reg lo hi crc
    exact ⟨_, rfl, exclusiveBus_append hs [writeTransfer Config.block reg lo hi crc]⟩
  · intro reg lo hi crc
    refine ⟨_, _, rfl, exclusiveBus_append hs [requestTransfer Config.block reg], rfl, ?_⟩
    change exclusiveBus (s.bus ++ [requestTransfer Config.block reg] ++
      [responseTransfer Config.block lo hi crc]) = true
    rw [List.append_assoc]
    exact exclusiveBus_append hs _

/-! ### The init sequence -/

/-- The host's program ends with records that ask for these words to be written, with these statuses. -/
def Writes (o : Host.Outcome State Fault Refusal) (s : State) (words : List (Byte × Half))
    (statuses : List Status) : Prop :=
  ∃ (t : State) (rs : List Result), o = .next t ∧ t.results = s.results ++ rs ∧
    rs.map (fun r => (r.tx0, r.tx2 ++ r.tx1)) = words ∧ rs.map (·.status) = statuses

/-- WR_DONE writes no field of its own (10_state.md R27). -/
theorem fieldsOf_wrDone (wstat : Byte) : fieldsOf (.wrDone wstat) = blankResult :=
  fieldsOf_of_writtenBy (· = blankResult) rfl rfl

/-- WR_DONE's record asks for no register and no word. -/
theorem doneRecord_word (reg : Byte) (v : Half) (wstat : Byte) :
    (doneRecord reg v wstat).tx0 = 0#8 ∧
      (doneRecord reg v wstat).tx2 ++ (doneRecord reg v wstat).tx1 = 0#16 := by
  simp only [doneRecord, recordOf, fieldsOf_wrDone]
  decide

/-- A WRITE asks for its own word, and its second status is the bus's (42_write_transaction.md R143). -/
theorem writes_pseudoWrite (reg : Byte) (v : Half) (wstat : Byte) (s : State) :
    Writes (pseudoWrite reg v wstat s) s [(reg, v), (0#8, 0#16)]
      [.ok, if wstat = 0x00#8 then .ok else .busError] := by
  obtain ⟨htx0, hword⟩ := doneRecord_word reg v wstat
  refine ⟨_, _, pseudoWrite_eq reg v wstat s, afterWrite_results reg v wstat s, ?_, ?_⟩
  · rw [List.map_cons, List.map_singleton, frameRecord_word, htx0, hword]
    rfl
  · rw [List.map_cons, List.map_singleton, doneRecord_status, ite_not]
    rfl

/-- The host stops at a WRITE that fails, with both its records there (60_exceptions.md R208). -/
theorem writes_ifOk_of_failed {wstat : Byte} (h : wstat ≠ 0x00#8) (reg : Byte) (v : Half) (s : State)
    (f : Result → State → Host.Outcome State Fault Refusal) :
    Writes (ifOk (pseudoWrite reg v wstat s) f) s [(reg, v), (0#8, 0#16)] [.ok, .busError] := by
  have hwrite := writes_pseudoWrite reg v wstat s
  rw [if_neg h] at hwrite
  rw [ifOk_pseudoWrite, if_neg h, ← pseudoWrite_eq]
  exact hwrite

/-- After a WRITE that succeeds the host goes on, and the records of the rest come after its own. -/
theorem writes_ifOk_of_ok {reg : Byte} {v : Half} {s : State} {words : List (Byte × Half)}
    {statuses : List Status} {f : Result → State → Host.Outcome State Fault Refusal}
    (hrest : Writes (f (doneRecord reg v 0x00#8) (afterWrite reg v 0x00#8 s)) (afterWrite reg v 0x00#8 s)
      words statuses) :
    Writes (ifOk (pseudoWrite reg v 0x00#8 s) f) s ((reg, v) :: (0#8, 0#16) :: words)
      (.ok :: .ok :: statuses) := by
  obtain ⟨u, qs, hwrite, hqs, hword, hstatus⟩ := writes_pseudoWrite reg v 0x00#8 s
  obtain rfl : afterWrite reg v 0x00#8 s = u := Host.Outcome.next.inj ((pseudoWrite_eq ..).symm.trans hwrite)
  obtain ⟨t, rs, hgo, hrs, hwords, hstatuses⟩ := hrest
  refine ⟨t, qs ++ rs, ?_, ?_, ?_, ?_⟩
  · rw [ifOk_pseudoWrite, if_pos rfl, hgo]
  · rw [hrs, hqs, List.append_assoc]
  · rw [List.map_append, hword, hwords]
    rfl
  · rw [List.map_append, hstatus, hstatuses]
    rfl

/-- What the records of a whole init sequence ask to be written (70_reset_and_hazards.md R243). -/
def initWords (v : InitValues) : List (Byte × Half) :=
  [(v.aApa, v.vApa), (0#8, 0#16), (v.aProf, v.vProf), (0#8, 0#16), (v.aPwr, 0x0001#16),
    (0#8, 0#16), (v.aStat, 0x0040#16), (0#8, 0#16)]

/-- How many records the init sequence answers before it ends: two a write performed. -/
def initCount (w1 w2 w3 : Byte) : Nat :=
  if w1 ≠ 0x00#8 then 2 else if w2 ≠ 0x00#8 then 4 else if w3 ≠ 0x00#8 then 6 else 8

/-- The init sequence performs the writes up to the first that fails. -/
theorem writes_pseudoInit (v : InitValues) (w1 w2 w3 w4 : Byte) (s : State) :
    Writes (pseudoInit v w1 w2 w3 w4 s) s ((initWords v).take (initCount w1 w2 w3))
      (List.replicate (initCount w1 w2 w3 - 1) .ok ++
        [if w1 = 0x00#8 ∧ w2 = 0x00#8 ∧ w3 = 0x00#8 ∧ w4 = 0x00#8 then .ok else .busError]) := by
  rw [pseudoInit]
  by_cases h1 : w1 = 0x00#8
  case neg => simpa [initWords, initCount, h1] using writes_ifOk_of_failed h1 v.aApa v.vApa s _
  subst h1
  by_cases h2 : w2 = 0x00#8
  case neg =>
    simpa [initWords, initCount, h2] using writes_ifOk_of_ok (writes_ifOk_of_failed h2 v.aProf v.vProf _ _)
  subst h2
  by_cases h3 : w3 = 0x00#8
  case neg =>
    simpa [initWords, initCount, h3] using
      writes_ifOk_of_ok (writes_ifOk_of_ok (writes_ifOk_of_failed h3 v.aPwr 0x0001#16 _ _))
  subst h3
  simpa [initWords, initCount] using
    writes_ifOk_of_ok (writes_ifOk_of_ok (writes_ifOk_of_ok (writes_pseudoWrite v.aStat 0x0040#16 w4 _)))

/-- Settles O48: the number of records is the number of words they ask for. -/
theorem initWritesFourRegistersOrStops : Obligations.InitWritesFourRegistersOrStops := by
  intro v w1 w2 w3 w4 s
  obtain ⟨t, rs, hinit, hresults, hwords, hstatuses⟩ := writes_pseudoInit v w1 w2 w3 w4 s
  have hbound : initCount w1 w2 w3 ≤ 8 := by unfold initCount; split_ifs <;> decide
  have hlength : rs.length = initCount w1 w2 w3 :=
    calc rs.length
      _ = ((initWords v).take (initCount w1 w2 w3)).length := by rw [← hwords, List.length_map]
      _ = initCount w1 w2 w3 := List.length_take_of_le hbound
  rw [← hlength] at hwords hstatuses
  exact ⟨t, rs, hinit, hresults, hlength, hwords, hstatuses⟩

end Sys2Proof.Proofs

/-! SUPPORT. What a table word decodes to, the steps that perform no instruction, and the statements about
the model's choices of how the host issues and what is there after reset. -/

namespace Sys2Proof.Proofs

open Sys2Proof.Machine Sys2Proof.Laws

/-! ### Table words -/

/-- A word the decoder reads is laid out as a form that decodes (30_encoding.md R60, R68). -/
theorem decodeTableWord_eq_some_iff {nbits w : Nat} {i : Instr} :
    decodeTableWord nbits w = some i ↔ decode (layTableWord nbits w) = .ok i := by
  unfold decodeTableWord
  cases decode (layTableWord nbits w) with
  | ok j => simp
  | error err => simp

/-- Settles O31: the word is presented as its form, before all the host has issued. -/
theorem stepRunsATableWord : Obligations.StepRunsATableWord :=
  fun s nbits w i h =>
    stepRunsTheNextInstruction (s.withFetchWord nbits w) _ s.pending i rfl
      (decodeTableWord_eq_some_iff.1 h)

/-! ### Steps that perform no instruction -/

/-- With nothing issued the machine stays as it is. -/
theorem step_of_pending_nil {s : State} (h : s.pending = []) : step s = .next s := by
  simp [step, fetch, h]

/-- A form that does not decode is taken off the host's list, and nothing else is done. -/
theorem step_of_pending_noFrame {s : State} {e : Encoded} {rest : List HostAction} {err : DecodeError}
    (hp : s.pending = .present e :: rest) (hd : decode e = .error err) :
    step s = .next { s with pending := rest } := by
  simp [step, fetch, hp, hd]

/-- Settles O32: the idle step, and the form that is a frame of no kind. -/
theorem stepWithoutAnInstruction : Obligations.StepWithoutAnInstruction :=
  ⟨fun _ hp => step_of_pending_nil hp, fun _ bytes _ _ hp hd =>
    step_of_pending_noFrame hp ((decode_wire bytes).trans hd)⟩

/-! ### Reset -/

/-- The block's reset writes `CRC_INIT` and nothing else (70_reset_and_hazards.md R240). -/
theorem resetBlock_eq (s : State) : resetBlock s = { s with acc := 0x00#8 } := rfl

/-- Settles O34: the block's reset, once its action is off the host's list. -/
theorem resetTouchesOnlyTheAccumulator : Obligations.ResetTouchesOnlyTheAccumulator := by
  intro s rest hp
  rw [step_of_pending_reset hp, resetBlock_eq]

/-- With no record and no transfer there is nothing that could be illegal. -/
theorem legalState_of_nil {s : State} (hr : s.results = []) (hb : s.bus = []) : LegalState s :=
  ⟨by rw [hr]; exact List.forall_mem_nil _, by rw [hb]; exact List.forall_mem_nil _⟩

/-- Settles O35: the state after reset has no record and no transfer. -/
theorem resetMeetsTheInvariant : Obligations.ResetMeetsTheInvariant :=
  ⟨legalState_of_nil reset_results reset_bus, reset_results, reset_bus, reset_pending⟩

end Sys2Proof.Proofs
